-- ==== Sys2Proof/Word.lean ====
section
/-! DEFINITION. The word and byte types (00_scope.md R3, R8, R9).

A word is 32 bits; `+`, `-` and `*` on it are mod 2^32 and signal nothing (R9). Bit 0 is the least significant bit. -/

namespace Sys2Proof

/-- A 32-bit word (R3). -/
abbrev Word := BitVec 32

/-- A byte. -/
abbrev Byte := BitVec 8

end Sys2Proof
end

