-- ==== Sys2Proof/Config.lean ====
section
/-! DEFINITION. What an implementation fixes (00_scope.md R4 to R7).

The pure functions of the cipher take `RC6_P`, `RC6_Q` and the key length set as arguments; only the machine's own
operations use the values of this file. -/

namespace Sys2Proof.Config

/-- `RC6_P`, the default value of R5 (log 9). -/
def rc6P : Word := 0xB7E15163#32

/-- `RC6_Q`, the default value of R5 (log 9). -/
def rc6Q : Word := 0x9E3779B9#32

/-- The default `KEY_LEN_SET` of R6, in bytes (log 10). -/
def keyLenSet : List Nat := [4, 8, 12, 16, 20, 24, 28, 32]

/-- The alternative `KEY_LEN_SET` that R6 admits; no operation of this machine uses it (log 10). -/
def keyLenSetNarrow : List Nat := [16, 24, 32]

/-- The block size in bytes (R6). -/
def blockBytes : Nat := 16

/-- The round count R (R4). -/
def rounds : Nat := 20

/-- The length T = 2R + 4 of the expanded key array (R4). -/
def tWords : Nat := 2 * rounds + 4

/-- `ID_VALUE` (R7, R21). -/
def idValue : Word := 0x52433601#32

/-- The latency of the nominal sequencer (R252, R253); no other definition depends on it. -/
def nominalLatency : Nat := 155

/-- The number of the 256-byte block of bus addresses that the platform gives the window: an open platform parameter
with no value here (R7, R67; log 11). -/
opaque baseBlock : Nat

/-- `BASE`, a multiple of 256 (R7, R67). -/
def base : Nat := 256 * baseBlock

end Sys2Proof.Config
end

