-- ==== Sys2Proof/Syntax.lean ====
section
/-! DEFINITION. The operations of the core: one constructor of `Instr` for each row of spec/opcode_table.json. -/

namespace Sys2Proof

/-- The direction of an access that a row admits both ways. Only a write carries data (20_memory.md R60). -/
inductive Dir where
  | read
  | write (wdata : Word)
deriving DecidableEq, Repr

/-- What `DecodeCmd` returns (30_encoding.md R84). -/
inductive Cmd where
  | enc (blen : Byte)
  | dec (blen : Byte)
  | illegal
deriving DecidableEq, Repr

/-- The registers of the window, by the names of the bus-script (10_state.md R20, 30_encoding.md R90). -/
inductive Reg where
  | id
  | ctrl
  | status
  | cmd
  | keylen
  | key (k : Fin 8)
  | din (k : Fin 4)
  | dout (k : Fin 4)
deriving DecidableEq, Repr

/-- One operation: a row of the opcode table with its operands. The command rows (`enc` to `cmdWhileBusy`) are writes
to CMD named by what the written word is; `wrCmd` is the same write named by its access (30_encoding.md R86). -/
inductive Instr where
  /-- ENC (44_commands.md R183): a CMD write of an ENC word with this BLEN. -/
  | enc (blen : Byte)
  /-- DEC (R184): a CMD write of a DEC word with this BLEN. -/
  | dec (blen : Byte)
  /-- ILLEGAL (R187): a CMD write of a word that is neither ENC nor DEC. -/
  | illegal (word : Word)
  /-- CMD_WHILE_BUSY (R188): a CMD write of any word made while STATUS.BUSY = 1. -/
  | cmdWhileBusy (word : Word)
  /-- COMPLETE (R185): the core sequencer's step. -/
  | complete
  /-- RD.ID (R189). -/
  | rdId
  /-- WR.ID (R190). -/
  | wrId (wdata : Word)
  /-- RD.CTRL (R191). -/
  | rdCtrl
  /-- WR.CTRL (R192). -/
  | wrCtrl (wdata : Word)
  /-- RD.STATUS (R193). -/
  | rdStatus
  /-- WR.STATUS (R194). -/
  | wrStatus (wdata : Word)
  /-- RD.CMD (R195). -/
  | rdCmd
  /-- WR.CMD (R180). -/
  | wrCmd (wdata : Word)
  /-- RD.KEYLEN (R196). -/
  | rdKeylen
  /-- WR.KEYLEN (R197). -/
  | wrKeylen (wdata : Word)
  /-- RD.KEY (R198). -/
  | rdKey (k : Fin 8)
  /-- WR.KEY (R199). -/
  | wrKey (k : Fin 8) (wdata : Word)
  /-- RD.DIN (R200). -/
  | rdDin (k : Fin 4)
  /-- WR.DIN (R201). -/
  | wrDin (k : Fin 4) (wdata : Word)
  /-- RD.DOUT (R202). -/
  | rdDout (k : Fin 4)
  /-- WR.DOUT (R203). -/
  | wrDout (k : Fin 4) (wdata : Word)
  /-- RSV.A (R204): offset 0x14. -/
  | rsvA (dir : Dir)
  /-- RSV.B (R204): offset 0x18 + 4n. -/
  | rsvB (dir : Dir) (n : Fin 2)
  /-- RSV.C (R204): offset 0x60 + 4n. -/
  | rsvC (dir : Dir) (n : Fin 8)
  /-- RSV.D (R204): offset 0x80 + 4n. -/
  | rsvD (dir : Dir) (n : Fin 32)
  /-- BUSERR.SIZE1 (R205): any 1-byte access. -/
  | busErrSize1 (dir : Dir) (off : Byte)
  /-- BUSERR.SIZE2 (R205): any 2-byte access. -/
  | busErrSize2 (dir : Dir) (off : Byte)
  /-- BUSERR.SIZE_RSV (R205): any access with the reserved size code. -/
  | busErrSizeRsv (dir : Dir) (off : Byte)
  /-- BUSERR.ODD (R205): a 4-byte access at an odd offset. -/
  | busErrOdd (dir : Dir) (off : Byte)
  /-- BUSERR.HALF (R205): a 4-byte access at an offset that is 2 mod 4. -/
  | busErrHalf (dir : Dir) (off : Byte)
deriving DecidableEq, Repr

/-- What the outside puts on the wires for one operation: an access (descriptor and wdata, 30_encoding.md R85), or the
command word alone, for the rows that the table gives as command words (R80). -/
inductive Packet where
  | access (descriptor : BitVec 11) (wdata : Word)
  | command (word : Word)
deriving DecidableEq, Repr

/-- The 25 access rows of 30_encoding.md R86. -/
inductive AccessRow where
  | rdId | wrId | rdCtrl | wrCtrl | rdStatus | wrStatus | rdCmd | wrCmd | rdKeylen | wrKeylen
  | rdKey | wrKey | rdDin | wrDin | rdDout | wrDout
  | rsvA | rsvB | rsvC | rsvD
  | busErrSize1 | busErrSize2 | busErrSizeRsv | busErrOdd | busErrHalf
deriving DecidableEq, Repr

end Sys2Proof
end

