-- ==== Sys2Proof/Decode.lean ====
section
/-! DEFINITION. Decoding and encoding (30_encoding.md R80 to R89).

`decodeCmd` is R84's DecodeCmd; `decodeAccess` classifies an access descriptor (R85, R86); `decode` reads the bytes of a
packet and rejects by name; `encode` writes packets from the same tables. The bytes of a packet (six for an access, four
for a command word, least significant first) are the model's own lay-out: the bus carries the facts on any wires (R85;
DESIGN CHOICE, log 14). -/

namespace Sys2Proof

/-! ## Command words -/

/-- DecodeCmd (R84), total on every word. -/
def decodeCmd (w : Word) : Cmd :=
  if w.extractLsb 31 16 ≠ 0 ∨ w.extractLsb 7 4 ≠ 0 then .illegal
  else if w.extractLsb 3 0 = 1 then .enc (w.extractLsb 15 8)
  else if w.extractLsb 3 0 = 2 then .dec (w.extractLsb 15 8)
  else .illegal

/-- The row that a command word belongs to by its bits: ENC, DEC or the default row ILLEGAL (R84). -/
def decodeCommandWord (w : Word) : Instr :=
  match decodeCmd w with
  | .enc b => .enc b
  | .dec b => .dec b
  | .illegal => .illegal w

/-- The row that takes a CMD write: while busy CMD_WHILE_BUSY takes every word before any decoding
(44_commands.md R180, R188); while idle the word decides. -/
def selectCommandRow (busy : Bool) (w : Word) : Instr :=
  if busy then .cmdWhileBusy w else decodeCommandWord w

/-! ## Access descriptors -/

/-- The descriptor `{WR, SZ, OFF}` (R85). -/
def descriptor (wr : Bool) (sz : BitVec 2) (off : Byte) : BitVec 11 :=
  BitVec.ofBool wr ++ sz ++ off

/-- The row of an aligned 32-bit access (R86), by its offset: the registers of 10_state.md R20, then the reserved
offsets 0x14, 0x18 and 0x1C, 0x60 to 0x7C, and 0x80 to 0xFC. -/
def decodeWordAccess (dir : Dir) (off : Byte) : Instr :=
  if off = 0x00#8 then (match dir with | .read => .rdId | .write v => .wrId v)
  else if off = 0x04#8 then (match dir with | .read => .rdCtrl | .write v => .wrCtrl v)
  else if off = 0x08#8 then (match dir with | .read => .rdStatus | .write v => .wrStatus v)
  else if off = 0x0C#8 then (match dir with | .read => .rdCmd | .write v => .wrCmd v)
  else if off = 0x10#8 then (match dir with | .read => .rdKeylen | .write v => .wrKeylen v)
  else if off = 0x14#8 then .rsvA dir
  else if off.extractLsb 7 3 = 3 then .rsvB dir (off.extractLsb 2 2).toFin
  else if off.extractLsb 7 5 = 1 then
    (match dir with
    | .read => .rdKey (off.extractLsb 4 2).toFin
    | .write v => .wrKey (off.extractLsb 4 2).toFin v)
  else if off.extractLsb 7 4 = 4 then
    (match dir with
    | .read => .rdDin (off.extractLsb 3 2).toFin
    | .write v => .wrDin (off.extractLsb 3 2).toFin v)
  else if off.extractLsb 7 4 = 5 then
    (match dir with
    | .read => .rdDout (off.extractLsb 3 2).toFin
    | .write v => .wrDout (off.extractLsb 3 2).toFin v)
  else if off.extractLsb 7 5 = 3 then .rsvC dir (off.extractLsb 4 2).toFin
  else .rsvD dir (off.extractLsb 6 2).toFin

/-- Access decode (R85, R86), total on every descriptor. `wdata` is used only by writes (20_memory.md R60). -/
def decodeAccess (d : BitVec 11) (wdata : Word) : Instr :=
  let off : Byte := d.extractLsb 7 0
  let dir : Dir := if d.extractLsb 10 10 = 1 then .write wdata else .read
  match d.extractLsb 9 8 with
  | 0 => .busErrSize1 dir off
  | 1 => .busErrSize2 dir off
  | 3 => .busErrSizeRsv dir off
  | _ =>
    if off.extractLsb 0 0 = 1 then .busErrOdd dir off
    else if off.extractLsb 1 0 = 2 then .busErrHalf dir off
    else decodeWordAccess dir off

/-- The mask of each row of R86's table. -/
def AccessRow.mask : AccessRow → BitVec 11
  | .rdId | .wrId | .rdCtrl | .wrCtrl | .rdStatus | .wrStatus | .rdCmd | .wrCmd | .rdKeylen | .wrKeylen => 0x7FF#11
  | .rdKey | .wrKey => 0x7E3#11
  | .rdDin | .wrDin | .rdDout | .wrDout => 0x7F3#11
  | .rsvA => 0x3FF#11
  | .rsvB => 0x3FB#11
  | .rsvC => 0x3E3#11
  | .rsvD => 0x383#11
  | .busErrSize1 | .busErrSize2 | .busErrSizeRsv => 0x300#11
  | .busErrOdd => 0x301#11
  | .busErrHalf => 0x303#11

/-- The match value of each row of R86's table. -/
def AccessRow.pattern : AccessRow → BitVec 11
  | .rdId => 0x200#11
  | .wrId => 0x600#11
  | .rdCtrl => 0x204#11
  | .wrCtrl => 0x604#11
  | .rdStatus => 0x208#11
  | .wrStatus => 0x608#11
  | .rdCmd => 0x20C#11
  | .wrCmd => 0x60C#11
  | .rdKeylen => 0x210#11
  | .wrKeylen => 0x610#11
  | .rdKey => 0x220#11
  | .wrKey => 0x620#11
  | .rdDin => 0x240#11
  | .wrDin => 0x640#11
  | .rdDout => 0x250#11
  | .wrDout => 0x650#11
  | .rsvA => 0x214#11
  | .rsvB => 0x218#11
  | .rsvC => 0x260#11
  | .rsvD => 0x280#11
  | .busErrSize1 => 0x000#11
  | .busErrSize2 => 0x100#11
  | .busErrSizeRsv => 0x300#11
  | .busErrOdd => 0x201#11
  | .busErrHalf => 0x202#11

/-- A row matches a descriptor when `d & mask == match` (R86). -/
def AccessRow.matches (r : AccessRow) (d : BitVec 11) : Bool := d &&& r.mask == r.pattern

/-- The access row of an operation. The four command rows are carried by WR.CMD (opcode_table.json, "carrier"); COMPLETE
is no access. -/
def Instr.accessRow : Instr → Option AccessRow
  | .enc _ | .dec _ | .illegal _ | .cmdWhileBusy _ | .wrCmd _ => some .wrCmd
  | .complete => none
  | .rdId => some .rdId
  | .wrId _ => some .wrId
  | .rdCtrl => some .rdCtrl
  | .wrCtrl _ => some .wrCtrl
  | .rdStatus => some .rdStatus
  | .wrStatus _ => some .wrStatus
  | .rdCmd => some .rdCmd
  | .rdKeylen => some .rdKeylen
  | .wrKeylen _ => some .wrKeylen
  | .rdKey _ => some .rdKey
  | .wrKey _ _ => some .wrKey
  | .rdDin _ => some .rdDin
  | .wrDin _ _ => some .wrDin
  | .rdDout _ => some .rdDout
  | .wrDout _ _ => some .wrDout
  | .rsvA _ => some .rsvA
  | .rsvB _ _ => some .rsvB
  | .rsvC _ _ => some .rsvC
  | .rsvD _ _ => some .rsvD
  | .busErrSize1 _ _ => some .busErrSize1
  | .busErrSize2 _ _ => some .busErrSize2
  | .busErrSizeRsv _ _ => some .busErrSizeRsv
  | .busErrOdd _ _ => some .busErrOdd
  | .busErrHalf _ _ => some .busErrHalf

/-! ## Packets as bytes -/

/-- Why bytes are no packet. -/
inductive DecodeError where
  /-- Neither the six bytes of an access nor the four of a command word. -/
  | length (n : Nat)
  /-- Bits 15 to 11 of the descriptor field are not zero: a descriptor has 11 bits (R85). -/
  | descriptorBits
deriving DecidableEq, Repr

/-- The four bytes of a word, least significant first. -/
def wordBytes (w : Word) : List Byte :=
  [w.extractLsb 7 0, w.extractLsb 15 8, w.extractLsb 23 16, w.extractLsb 31 24]

/-- The bytes of a packet. -/
def Packet.bytes : Packet → List Byte
  | .access d v => (d.extractLsb 7 0 : Byte) :: (BitVec.zeroExtend 8 (d.extractLsb 10 8)) :: wordBytes v
  | .command w => wordBytes w

/-- Decode the bytes of a packet. A command word alone is read as a write of it to CMD while idle. -/
def decode : List Byte → Except DecodeError Instr
  | [d0, d1, v0, v1, v2, v3] =>
    if d1.extractLsb 7 3 ≠ 0 then .error .descriptorBits
    else .ok (decodeAccess (d1.extractLsb 2 0 ++ d0) (v3 ++ v2 ++ v1 ++ v0))
  | [w0, w1, w2, w3] => .ok (decodeCommandWord (w3 ++ w2 ++ w1 ++ w0))
  | bs => .error (.length bs.length)

/-- The `n` low bytes of a number, least significant first. -/
def lowBytes : Nat → Nat → List Byte
  | 0, _ => []
  | n + 1, w => BitVec.ofNat 8 w :: lowBytes n (w / 256)

/-- The packet bytes of an instruction given as the opcode table numbers its bits: up to 16 bits are an access
descriptor (its wdata zero), up to 32 a command word, beyond that a descriptor with its wdata from bit 16 on. -/
def tableBytes (nbits w : Nat) : List Byte :=
  if 16 < nbits ∧ nbits ≤ 32 then lowBytes 4 w else lowBytes 6 w

/-- What the decoder reads from an instruction whose `nbits` bits, numbered as opcode_table.json numbers them, are
`w`. -/
def decodeTableWord (nbits w : Nat) : Option Instr :=
  match decode (tableBytes nbits w) with
  | .ok i => some i
  | .error _ => none

/-! ## Encoding -/

/-- The write bit of a direction (R85). -/
def Dir.isWrite : Dir → Bool
  | .read => false
  | .write _ => true

/-- The wdata of a direction; a read carries none, and the wires are given as zero. -/
def Dir.wdata : Dir → Word
  | .read => 0
  | .write v => v

/-- The packet of an access in direction `dir` with size code `sz` at offset `off`. -/
def accessPacket (dir : Dir) (sz : BitVec 2) (off : Byte) : Packet :=
  .access (descriptor dir.isWrite sz off) dir.wdata

/-- A command word from its fields (R80): OP in [3:0], BLEN in [15:8], the reserved fields zero. -/
def commandWord (op : BitVec 4) (blen : Byte) : Word :=
  (0#16 : BitVec 16) ++ blen ++ (0#4 : BitVec 4) ++ op

/-- The packet of a well-formed operation (R80, R85, R86). COMPLETE has none: "not encoded" (opcode_table.json). -/
def encode : Instr → Option Packet
  | .enc b => some (.command (commandWord 1 b))
  | .dec b => some (.command (commandWord 2 b))
  | .illegal w => some (.command w)
  | .cmdWhileBusy w => some (.command w)
  | .complete => none
  | .rdId => some (accessPacket .read 2 0x00#8)
  | .wrId v => some (accessPacket (.write v) 2 0x00#8)
  | .rdCtrl => some (accessPacket .read 2 0x04#8)
  | .wrCtrl v => some (accessPacket (.write v) 2 0x04#8)
  | .rdStatus => some (accessPacket .read 2 0x08#8)
  | .wrStatus v => some (accessPacket (.write v) 2 0x08#8)
  | .rdCmd => some (accessPacket .read 2 0x0C#8)
  | .wrCmd v => some (accessPacket (.write v) 2 0x0C#8)
  | .rdKeylen => some (accessPacket .read 2 0x10#8)
  | .wrKeylen v => some (accessPacket (.write v) 2 0x10#8)
  | .rdKey k => some (accessPacket .read 2 (0x20#8 + BitVec.ofNat 8 (4 * k)))
  | .wrKey k v => some (accessPacket (.write v) 2 (0x20#8 + BitVec.ofNat 8 (4 * k)))
  | .rdDin k => some (accessPacket .read 2 (0x40#8 + BitVec.ofNat 8 (4 * k)))
  | .wrDin k v => some (accessPacket (.write v) 2 (0x40#8 + BitVec.ofNat 8 (4 * k)))
  | .rdDout k => some (accessPacket .read 2 (0x50#8 + BitVec.ofNat 8 (4 * k)))
  | .wrDout k v => some (accessPacket (.write v) 2 (0x50#8 + BitVec.ofNat 8 (4 * k)))
  | .rsvA dir => some (accessPacket dir 2 0x14#8)
  | .rsvB dir n => some (accessPacket dir 2 (0x18#8 + BitVec.ofNat 8 (4 * n)))
  | .rsvC dir n => some (accessPacket dir 2 (0x60#8 + BitVec.ofNat 8 (4 * n)))
  | .rsvD dir n => some (accessPacket dir 2 (0x80#8 + BitVec.ofNat 8 (4 * n)))
  | .busErrSize1 dir off => some (accessPacket dir 0 off)
  | .busErrSize2 dir off => some (accessPacket dir 1 off)
  | .busErrSizeRsv dir off => some (accessPacket dir 3 off)
  | .busErrOdd dir off => some (accessPacket dir 2 off)
  | .busErrHalf dir off => some (accessPacket dir 2 off)

end Sys2Proof
end

