-- ==== Sys2Proof/Machine/State.lean ====
section
/-! DEFINITION. The state of the machine (10_state.md), as plain data, and the state after reset (R45).

The registers of the window come first, then the internal state of 10_state.md section 4, then the two fields that are
the model's own: the response to the most recent access and the agenda of inputs still to come (log 1, log 2). ID is
hardwired and CMD stores nothing, so neither is a field; `irq` is a function of the state (R35). -/

namespace Sys2Proof.Machine

/-- The operation of a snapshot: int.snap.op, 0 = ENC, 1 = DEC (10_state.md R38). -/
inductive Op where
  | enc
  | dec
deriving DecidableEq, Repr

/-- The sequencer phase int.phase (10_state.md R39). -/
inductive Phase where
  | idle
  | ksInit
  | ksMix
  | pre
  | round
  | post
deriving DecidableEq, Repr

/-- Four words A, B, C, D (40_data_format.md R100, 10_state.md R43). -/
structure Block where
  a : Word
  b : Word
  c : Word
  d : Word
deriving DecidableEq, Repr

/-- The snapshot int.snap (10_state.md R38). -/
structure Snapshot where
  /-- int.snap.op -/
  op : Op
  /-- int.snap.c, the key word count -/
  c : BitVec 4
  /-- int.snap.L, the key words; the working copy that the nominal mixing overwrites (R42) -/
  L : Vector Word 8
  /-- int.snap.blk, the block words -/
  blk : Vector Word 4
deriving DecidableEq, Repr

/-- The internal state (10_state.md section 4). No bus access reads it. -/
structure Internal where
  /-- int.snap (R38) -/
  snap : Snapshot
  /-- int.phase (R39) -/
  phase : Phase
  /-- int.S, the expanded key array (R41) -/
  S : Vector Word 44
  /-- int.KA (R42) -/
  ka : Word
  /-- int.KB (R42) -/
  kb : Word
  /-- int.i, the index into S (R42) -/
  i : Fin 44
  /-- int.j, the index into L (R42) -/
  j : Fin 8
  /-- int.k, the iteration counter, "in 0 to 3·max(c, 44) - 1" (R42): 0 to 131, since c has four bits (R38) -/
  k : Fin 132
  /-- int.A, int.B, int.C, int.D (R43) -/
  w : Block
  /-- int.r, the round counter, "in 0 to R-1" (R43) -/
  r : Fin 20
deriving DecidableEq, Repr

/-- The codes of STATUS.ERRCODE (60_exceptions.md R211). Codes 4 to 15 are "never produced" and have no name here, so no
state holds one (93_implementation_defined.md U7; log 18). -/
inductive ErrCode where
  | none
  | illegalCmd
  | blockSize
  | keySize
deriving DecidableEq, Repr

/-- The response to one access (20_memory.md R60). -/
inductive Response where
  /-- A read: err = 0 and this rdata. -/
  | data (rdata : Word)
  /-- A write: err = 0. `BusWrite` returns err alone, so there is no rdata (R60; log 2). -/
  | written
  /-- The error response: err = 1 and rdata = 0x00000000 (60_exceptions.md R215). -/
  | busError
deriving DecidableEq, Repr

/-- One input: what moves next (44_commands.md introduction, log 1). -/
inductive Event where
  /-- The host makes one access (20_memory.md R60). -/
  | access (descriptor : BitVec 11) (wdata : Word)
  /-- The host repeats `rd REG` until `(rdata & mask) == val` (30_encoding.md R90). After `turns` further unsuccessful
  reads the core sequencer has its turn (log 16). -/
  | poll (reg : Reg) (mask val : Word) (turns : Nat)
  /-- The core sequencer has its turn: completion, if it is enabled (44_commands.md R185). -/
  | sequencer
  /-- One clock of the nominal sequencer (70_reset_and_hazards.md R253). -/
  | cycle
  /-- Reset (70_reset_and_hazards.md R240). -/
  | reset
  /-- The host makes an access while `rst` is high (70_reset_and_hazards.md R243). -/
  | accessInReset (descriptor : BitVec 11) (wdata : Word)
deriving DecidableEq, Repr

/-- Why the machine would stop with a fault. It never does: a command error and a bus error are next states, and "nothing
else fails" (60_exceptions.md R210), so the type has no constructor. -/
inductive Fault where
deriving DecidableEq, Repr

/-- Why an instruction would be refused. -/
inductive Refusal where
  /-- Raised by an arm of `exec` whose instruction has no meaning yet; safe. No arm raises it: every instruction has its
  meaning. -/
  | notModelled (mnemonic : String)
deriving DecidableEq, Repr

/-- The whole state. -/
structure State where
  /-- CTRL.IE (10_state.md R22) -/
  ie : Bool
  /-- STATUS.BUSY (R23) -/
  busy : Bool
  /-- STATUS.DONE (R24) -/
  done : Bool
  /-- STATUS.ERR (R25) -/
  err : Bool
  /-- STATUS.CMDOVR (R26) -/
  cmdovr : Bool
  /-- STATUS.ERRCODE (R27) -/
  errcode : ErrCode
  /-- KEYLEN.LEN (R30) -/
  keylen : Byte
  /-- KEY0 to KEY7 (R31) -/
  key : Vector Word 8
  /-- DIN0 to DIN3 (R32) -/
  din : Vector Word 4
  /-- DOUT0 to DOUT3 (R33) -/
  dout : Vector Word 4
  /-- the internal state (section 4) -/
  int : Internal
  /-- MODEL's own: the response to the most recent access, `none` before the first (log 2) -/
  resp : Option Response
  /-- MODEL's own: the inputs still to come, oldest first (log 1) -/
  agenda : List Event
deriving DecidableEq, Repr

/-- The internal state after reset: the phase is IDLE; every other word is "unspecified" in R45 and is zero here
(DESIGN CHOICE, log 5). -/
def Internal.reset : Internal where
  snap := { op := .enc, c := 0#4, L := Vector.replicate 8 0#32, blk := Vector.replicate 4 0#32 }
  phase := .idle
  S := Vector.replicate 44 0#32
  ka := 0#32
  kb := 0#32
  i := 0
  j := 0
  k := 0
  w := { a := 0#32, b := 0#32, c := 0#32, d := 0#32 }
  r := 0

/-- The state after reset (R45): no access made yet and no input pending. -/
def State.reset : State where
  ie := false
  busy := false
  done := false
  err := false
  cmdovr := false
  errcode := .none
  keylen := 0#8
  key := Vector.replicate 8 0#32
  din := Vector.replicate 4 0#32
  dout := Vector.replicate 4 0#32
  int := Internal.reset
  resp := none
  agenda := []

end Sys2Proof.Machine
end

