-- ==== Sys2Proof/Machine/Operands.lean ====
section
/-! DEFINITION. Operands: rotations (00_scope.md R10), the offsets of the registers (10_state.md R20), and where a
command's operands come from (30_encoding.md R87). -/

namespace Sys2Proof.Machine

/-! ## Rotations -/

/-- Rotate left by `n mod 32` positions (R10). -/
def rotl (x : Word) (n : Nat) : Word :=
  if n % 32 = 0 then x else (x <<< (n % 32)) ||| (x >>> (32 - n % 32))

/-- Rotate right by `n mod 32` positions (R10). -/
def rotr (x : Word) (n : Nat) : Word :=
  if n % 32 = 0 then x else (x >>> (n % 32)) ||| (x <<< (32 - n % 32))

/-! ## Registers -/

/-- The byte offset of a register (10_state.md R20). -/
def regOffset : Reg → Byte
  | .id => 0x00#8
  | .ctrl => 0x04#8
  | .status => 0x08#8
  | .cmd => 0x0C#8
  | .keylen => 0x10#8
  | .key k => BitVec.ofNat 8 (0x20 + 4 * k)
  | .din k => BitVec.ofNat 8 (0x40 + 4 * k)
  | .dout k => BitVec.ofNat 8 (0x50 + 4 * k)

/-! ## Operands of a command -/

/-- The key length in bytes, `len = reg[KEYLEN].LEN` (R87). -/
def keyBytes (s : State) : Nat := s.keylen.toNat

/-- The key word count `c = len / 4` (R87), in the four bits of int.snap.c (10_state.md R38). -/
def keyWordCount (s : State) : BitVec 4 := BitVec.ofNat 4 (keyBytes s / 4)

/-- Whether a key length is in a key length set (00_scope.md R6). -/
def keyLenLegal (set : List Nat) (len : Nat) : Bool := set.contains len

/-- The four words of a block register group as A, B, C, D (40_data_format.md R100). -/
def Block.ofWords (v : Vector Word 4) : Block :=
  { a := v.get 0, b := v.get 1, c := v.get 2, d := v.get 3 }

/-- A, B, C, D as the words 0 to 3 (40_data_format.md R102). -/
def Block.words (x : Block) : Vector Word 4 := #v[x.a, x.b, x.c, x.d]

end Sys2Proof.Machine
end

