-- ==== Sys2Proof/Machine/KeySchedule.lean ====
section
/-! DEFINITION. The key schedule (41_key_schedule.md R120 to R126), a pure function of the constants P and Q, the key
words and their count. -/

namespace Sys2Proof.Machine

/-- `n` words, the first `x` and each next one the previous plus `q` (R121). -/
def arithWords (q : Word) : Nat → Word → List Word
  | 0, _ => []
  | n + 1, x => x :: arithWords q n (x + q)

/-- The length of `arithWords`, which makes it an array of 44 words below. -/
theorem arithWords_length (q : Word) (n : Nat) (x : Word) : (arithWords q n x).length = n := by
  induction n generalizing x with
  | zero => rfl
  | succ n ih => simp [arithWords, ih]

/-- The initial S: `S[0] = P` and `S[k] = S[k-1] + Q` (R121). -/
def initS (p q : Word) : Vector Word 44 := ⟨⟨arithWords q 44 p⟩, arithWords_length q 44 p⟩

/-- The state of the mixing loop (R122). -/
structure Mix where
  S : Vector Word 44
  L : Vector Word 8
  ka : Word
  kb : Word
  i : Fin 44
  j : Fin 8
deriving DecidableEq, Repr

/-- Before the first iteration: `KA = KB = 0`, `i = j = 0` (R122). -/
def mixStart (p q : Word) (L : Vector Word 8) : Mix :=
  { S := initS p q, L := L, ka := 0#32, kb := 0#32, i := 0, j := 0 }

/-- `j <- (j + 1) mod c` (R124), for c in 1 to 8. -/
def nextJ (c : Nat) (j : Fin 8) : Fin 8 := Fin.ofNat 8 ((j.val + 1) % c)

/-- One iteration (R122): the new KA is rotated by 3 and written back to S[i]; the new KB is computed with it, rotated by
KA + KB, and written back to L[j] (R125); then both indices advance (R124). -/
def mixStep (c : Nat) (m : Mix) : Mix :=
  let ka := rotl (m.S.get m.i + m.ka + m.kb) 3
  let kb := rotl (m.L.get m.j + ka + m.kb) (ka + m.kb).toNat
  { S := m.S.set m.i ka, L := m.L.set m.j kb, ka := ka, kb := kb, i := m.i + 1, j := nextJ c m.j }

/-- `n` iterations. -/
def mixLoop (c : Nat) : Nat → Mix → Mix
  | 0, m => m
  | n + 1, m => mixLoop c n (mixStep c m)

/-- The iteration count `3 * max(c, 44)` (R123). -/
def mixIterations (c : Nat) : Nat := 3 * max c 44

/-- KeySchedule(L, c): S as it stands after the last iteration (R120, R126). It uses only the first `c` words of `L`. -/
def keySchedule (p q : Word) (L : Vector Word 8) (c : Nat) : Vector Word 44 :=
  (mixLoop c (mixIterations c) (mixStart p q L)).S

end Sys2Proof.Machine
end

