-- ==== Sys2Proof/Machine/Encrypt.lean ====
section
/-! DEFINITION. Encryption (42_encrypt.md R140 to R145), a pure function of the expanded key array and the block. -/

namespace Sys2Proof.Machine

/-- `F(x) = rotl(x * (2*x + 1), 5)` (R140). -/
def quad (x : Word) : Word := rotl (x * (2#32 * x + 1#32)) 5

/-- Entry `n` of the expanded key array. Every rule uses `n` below 44; beyond that the value is not used. -/
def roundKey (S : Vector Word 44) (n : Nat) : Word := S.getD n 0#32

/-- Pre-whitening (R141): `B += S[0]`, `D += S[1]`. -/
def preWhiten (S : Vector Word 44) (x : Block) : Block :=
  { x with b := x.b + roundKey S 0, d := x.d + roundKey S 1 }

/-- Round `i` (R142), with the register rotation (A, B, C, D) <- (B, C, D, A) (R143). -/
def encRound (S : Vector Word 44) (i : Nat) (x : Block) : Block :=
  let t := quad x.b
  let u := quad x.d
  let a := rotl (x.a ^^^ t) u.toNat + roundKey S (2 * i + 2)
  let c := rotl (x.c ^^^ u) t.toNat + roundKey S (2 * i + 3)
  { a := x.b, b := c, c := x.d, d := a }

/-- `n` rounds, the first of them round `i`. -/
def encRounds (S : Vector Word 44) : Nat → Nat → Block → Block
  | 0, _, x => x
  | n + 1, i, x => encRounds S n (i + 1) (encRound S i x)

/-- Post-whitening (R144): `A += S[42]`, `C += S[43]`. -/
def postWhiten (S : Vector Word 44) (x : Block) : Block :=
  { x with a := x.a + roundKey S 42, c := x.c + roundKey S 43 }

/-- Encrypt (R145). -/
def encrypt (S : Vector Word 44) (x : Block) : Block :=
  postWhiten S (encRounds S Config.rounds 0 (preWhiten S x))

end Sys2Proof.Machine
end

