-- ==== Sys2Proof/Machine/Decrypt.lean ====
section
/-! DEFINITION. Decryption (43_decrypt.md R160 to R163), with the same expanded key array as encryption. -/

namespace Sys2Proof.Machine

/-- Inverse post-whitening (R160): `C -= S[43]`, `A -= S[42]`. -/
def unPostWhiten (S : Vector Word 44) (x : Block) : Block :=
  { x with a := x.a - roundKey S 42, c := x.c - roundKey S 43 }

/-- Inverse round `i` (R161): first the register rotation is undone, (A, B, C, D) <- (D, A, B, C), then u and t are
recomputed and A and C restored. -/
def decRound (S : Vector Word 44) (i : Nat) (x : Block) : Block :=
  let a := x.d
  let b := x.a
  let c := x.b
  let d := x.c
  let u := quad d
  let t := quad b
  { a := rotr (a - roundKey S (2 * i + 2)) u.toNat ^^^ t
    b := b
    c := rotr (c - roundKey S (2 * i + 3)) t.toNat ^^^ u
    d := d }

/-- Inverse rounds `n - 1` down to 0. -/
def decRounds (S : Vector Word 44) : Nat → Block → Block
  | 0, x => x
  | n + 1, x => decRounds S n (decRound S n x)

/-- Inverse pre-whitening (R162): `D -= S[1]`, `B -= S[0]`. -/
def unPreWhiten (S : Vector Word 44) (x : Block) : Block :=
  { x with b := x.b - roundKey S 0, d := x.d - roundKey S 1 }

/-- Decrypt (R163). -/
def decrypt (S : Vector Word 44) (x : Block) : Block :=
  unPreWhiten S (decRounds S Config.rounds (unPostWhiten S x))

/-- The operation of a snapshot applied to an expanded key array and a block (44_commands.md R185). -/
def crypt (op : Op) (S : Vector Word 44) (x : Block) : Block :=
  match op with
  | .enc => encrypt S x
  | .dec => decrypt S x

end Sys2Proof.Machine
end

