-- ==== Sys2Proof/Machine/Flags.lean ====
section
/-! DEFINITION. The status flags and the interrupt level (10_state.md R22 to R28, R35). The core has no arithmetic flags
(R37). -/

namespace Sys2Proof.Machine

/-- The number of an error code in STATUS[11:8] (60_exceptions.md R211). -/
def ErrCode.code : ErrCode → BitVec 4
  | .none => 0#4
  | .illegalCmd => 1#4
  | .blockSize => 2#4
  | .keySize => 3#4

/-- What a STATUS read returns: `{20'b0, ERRCODE, 4'b0, CMDOVR, ERR, DONE, BUSY}` (R28). -/
def statusWord (s : State) : Word :=
  (0#20 ++ s.errcode.code ++ 0#4 ++ BitVec.ofBool s.cmdovr ++ BitVec.ofBool s.err ++ BitVec.ofBool s.done
    ++ BitVec.ofBool s.busy : BitVec 32)

/-- What a CTRL read returns: `{31'b0, IE}` (R22). -/
def ctrlWord (s : State) : Word := (0#31 ++ BitVec.ofBool s.ie : BitVec 32)

/-- The interrupt output: `CTRL.IE and (STATUS.DONE or STATUS.ERR)` (R35). -/
def irq (s : State) : Bool := s.ie && (s.done || s.err)

/-- What every CMD write made while idle does first: DONE, ERR and ERRCODE to 0 (44_commands.md R180). -/
def clearOutcome (s : State) : State := { s with done := false, err := false, errcode := .none }

/-- A CMD write while busy: CMDOVR to 1, and nothing else (44_commands.md R188). -/
def setOverrun (s : State) : State := { s with cmdovr := true }

/-- Clear DONE (R24). -/
def clearDone (s : State) : State := { s with done := false }

/-- Clear ERR, and ERRCODE with it (R25, R28): the host's acknowledgement, the core's "trap return"
(60_exceptions.md R221). -/
def clearErr (s : State) : State := { s with err := false, errcode := .none }

/-- Clear CMDOVR (R26). -/
def clearOverrun (s : State) : State := { s with cmdovr := false }

/-- Apply `f` if the bit is set. -/
def whenSet (b : Bool) (f : State → State) (s : State) : State := if b then f s else s

/-- The W1C write of STATUS (44_commands.md R194): bits 1, 2 and 3 clear DONE, ERR with ERRCODE, and CMDOVR; every other
bit is ignored. -/
def writeStatus (v : Word) (s : State) : State :=
  whenSet (v.getLsbD 3) clearOverrun (whenSet (v.getLsbD 2) clearErr (whenSet (v.getLsbD 1) clearDone s))

end Sys2Proof.Machine
end

