-- ==== Sys2Proof/Machine/Ops.lean ====
section
/-! DEFINITION. The shared operations over the registers: the response of an access, reading and writing a register, the
two ways to fail (60_exceptions.md R212, R215), and the issue of a command (44_commands.md R180 to R182). -/

namespace Sys2Proof.Machine

/-! ## Responses -/

/-- Answer a read with err = 0 (20_memory.md R60). -/
def respondData (v : Word) (s : State) : State := { s with resp := some (.data v) }

/-- Answer a write with err = 0 (20_memory.md R60). -/
def respondWritten (s : State) : State := { s with resp := some .written }

/-- `raise BusError` (60_exceptions.md R215): err = 1 and rdata = 0; no state of the core changes. -/
def raiseBusError (s : State) : State := { s with resp := some .busError }

/-- Whether a response is an error response (20_memory.md R60). -/
def Response.isError : Response → Bool
  | .data _ => false
  | .written => false
  | .busError => true

/-- The rdata of a response: that of a read, and 0 with an error response (60_exceptions.md R215). -/
def Response.rdata : Response → Option Word
  | .data v => some v
  | .written => none
  | .busError => some 0#32

/-! ## Registers -/

/-- What a read of a register returns (10_state.md R21 to R33). ID is hardwired; CMD and the keys read zero. -/
def readReg (r : Reg) (s : State) : Word :=
  match r with
  | .id => Config.idValue
  | .ctrl => ctrlWord s
  | .status => statusWord s
  | .cmd => 0#32
  | .keylen => (0#24 ++ s.keylen : BitVec 32)
  | .key _ => 0#32
  | .din k => s.din.get k
  | .dout k => s.dout.get k

/-- What a 32-bit read at an offset returns, whatever the offset holds: a register (R20); nothing, which reads zero (R34);
or no word at all, since a misaligned offset reads zero with an error response (20_memory.md R63). -/
def readOffset (off : Byte) (s : State) : Word :=
  if off.extractLsb 1 0 ≠ 0 then 0#32
  else match decodeWordAccess .read off with
    | .rdId => readReg .id s
    | .rdCtrl => readReg .ctrl s
    | .rdStatus => readReg .status s
    | .rdKeylen => readReg .keylen s
    | .rdDin k => readReg (.din k) s
    | .rdDout k => readReg (.dout k) s
    | _ => 0#32

/-- A CTRL write (10_state.md R22): `IE <- wdata[0]`. -/
def writeCtrl (v : Word) (s : State) : State := { s with ie := v.getLsbD 0 }

/-- A KEYLEN write (R30): `LEN <- wdata[7:0]`, with no check. -/
def writeKeylen (v : Word) (s : State) : State := { s with keylen := v.extractLsb 7 0 }

/-- A KEYk write (R31). -/
def writeKey (k : Fin 8) (v : Word) (s : State) : State := { s with key := s.key.set k v }

/-- A DINk write (R32). -/
def writeDin (k : Fin 4) (v : Word) (s : State) : State := { s with din := s.din.set k v }

/-! ## Commands -/

/-- The command checks, in their order (44_commands.md R181, 60_exceptions.md R214): ILLEGAL_CMD, BLOCK_SIZE, KEY_SIZE. -/
def checkCmd (d : Cmd) (s : State) : ErrCode :=
  match d with
  | .illegal => .illegalCmd
  | .enc blen | .dec blen =>
    if blen.toNat ≠ Config.blockBytes then .blockSize
    else if keyLenLegal Config.keyLenSet (keyBytes s) then .none
    else .keySize

/-- `raise CmdError(code)` (60_exceptions.md R212): the core's "trap entry" (R220). -/
def raiseCmdError (code : ErrCode) (s : State) : State := { s with err := true, errcode := code }

/-- `(d is ENC) ? 0 : 1` (44_commands.md R182). -/
def Cmd.op : Cmd → Op
  | .enc _ => .enc
  | _ => .dec

/-- The snapshot that an accepted command takes (R182). -/
def takeSnapshot (op : Op) (s : State) : Snapshot := { op := op, c := keyWordCount s, L := s.key, blk := s.din }

/-- Issue (R182): snapshot and start. DOUT is not changed. -/
def issue (op : Op) (s : State) : State :=
  { s with int := { s.int with snap := takeSnapshot op s, phase := .ksInit }, busy := true }

/-- What an idle core does with a command once DONE, ERR and ERRCODE are cleared (R180): check, then raise or issue. -/
def startCommand (d : Cmd) (s : State) : State :=
  match checkCmd d s with
  | .none => issue (Cmd.op d) s
  | code => raiseCmdError code s

/-- A CMD write of a decoded word (R180). While busy it sets CMDOVR and nothing else (R188). -/
def command (d : Cmd) (s : State) : State :=
  if s.busy then setOverrun s else startCommand d (clearOutcome s)

/-- WriteCmd (R180): a CMD write of a word. -/
def writeCmd (v : Word) (s : State) : State := command (decodeCmd v) s

end Sys2Proof.Machine
end

