-- ==== Sys2Proof/Machine/Sequencer.lean ====
section
/-! DEFINITION. The core sequencer: completion (44_commands.md R185) and the nominal sequencer, one phase step per clock
(70_reset_and_hazards.md R253). -/

namespace Sys2Proof.Machine

/-- The expanded key array of a snapshot (R185, R186), with this machine's constants. -/
def snapSchedule (sn : Snapshot) : Vector Word 44 := keySchedule Config.rc6P Config.rc6Q sn.L sn.c.toNat

/-- The result that R185 computes from the snapshot alone. -/
def snapResult (sn : Snapshot) : Block := crypt sn.op (snapSchedule sn) (Block.ofWords sn.blk)

/-! ## The nominal datapath -/

/-- The mixing state held in the internal registers (10_state.md R42). -/
def Internal.mix (n : Internal) : Mix := { S := n.S, L := n.snap.L, ka := n.ka, kb := n.kb, i := n.i, j := n.j }

/-- Put a mixing state back into the internal registers. The mixing overwrites int.snap.L (41_key_schedule.md R125). -/
def Internal.setMix (n : Internal) (m : Mix) : Internal :=
  { n with snap := { n.snap with L := m.L }, S := m.S, ka := m.ka, kb := m.kb, i := m.i, j := m.j }

/-- The number of mixing iterations of the running command (41_key_schedule.md R123). -/
def Internal.iterations (n : Internal) : Nat := mixIterations n.snap.c.toNat

/-- The step before the rounds: pre-whitening, or its decryption counterpart, inverse post-whitening (R253, PRE). -/
def whitenIn (op : Op) (S : Vector Word 44) (x : Block) : Block :=
  match op with
  | .enc => preWhiten S x
  | .dec => unPostWhiten S x

/-- Cycle `r` of the ROUND phase (R253): encryption round r, or inverse round 19 - r. -/
def roundAt (op : Op) (S : Vector Word 44) (r : Nat) (x : Block) : Block :=
  match op with
  | .enc => encRound S r x
  | .dec => decRound S (Config.rounds - 1 - r) x

/-- The step after the rounds (R253, POST). -/
def whitenOut (op : Op) (S : Vector Word 44) (x : Block) : Block :=
  match op with
  | .enc => postWhiten S x
  | .dec => unPreWhiten S x

/-- The rounds from cycle `r` of the ROUND phase to its end. -/
def roundsFrom (op : Op) (S : Vector Word 44) (r : Nat) (x : Block) : Block :=
  match op with
  | .enc => encRounds S (Config.rounds - r) r x
  | .dec => decRounds S (Config.rounds - r) x

/-! ## Completion -/

/-- The result of the running command. A core whose nominal sequencer has not started its mixing (KS_INIT, the phase
that R182 leaves) computes it from the snapshot, exactly as R185 writes it. A core that clocks have moved on
has overwritten part of the snapshot's key words (R125) and finishes the phases that are left (log 7). -/
def pendingResult (n : Internal) : Block :=
  match n.phase with
  | .idle | .ksInit => snapResult n.snap
  | .ksMix =>
    crypt n.snap.op (mixLoop n.snap.c.toNat (n.iterations - n.k.val) n.mix).S (Block.ofWords n.snap.blk)
  | .pre => crypt n.snap.op n.S (Block.ofWords n.snap.blk)
  | .round => whitenOut n.snap.op n.S (roundsFrom n.snap.op n.S n.r.val n.w)
  | .post => whitenOut n.snap.op n.S n.w

/-- The completion writes (R185): DOUT0 to DOUT3, BUSY, DONE and the phase, in one step. -/
def finish (y : Block) (s : State) : State :=
  { s with dout := y.words, busy := false, done := true, int := { s.int with phase := .idle } }

/-- Complete (R185), "enabled iff reg[STATUS].BUSY == 1"; the turn of an idle sequencer changes nothing (log 3). -/
def completeStep (s : State) : State := if s.busy then finish (pendingResult s.int) s else s

/-! ## One clock of the nominal sequencer (R253) -/

/-- KS_INIT: S gets its constants; KA, KB, i, j, k get 0. -/
def cycleKsInit (n : Internal) : Internal :=
  { n.setMix (mixStart Config.rc6P Config.rc6Q n.snap.L) with k := 0, phase := .ksMix }

/-- KS_MIX: one iteration, `k <- k + 1`. The last one leads to PRE, and k, which stays in its range (R42), is 0 again
(log 24). -/
def cycleKsMix (n : Internal) : Internal :=
  { n.setMix (mixStep n.snap.c.toNat n.mix) with
    k := n.k + 1
    phase := if n.k.val + 1 < n.iterations then .ksMix else .pre }

/-- PRE: the block is loaded and whitened; r gets 0. -/
def cyclePre (n : Internal) : Internal :=
  { n with w := whitenIn n.snap.op n.S (Block.ofWords n.snap.blk), r := 0, phase := .round }

/-- ROUND: one round, `r <- r + 1`. The last one leads to POST, and r, which stays in its range (R43), is 0 again
(log 24). -/
def cycleRound (n : Internal) : Internal :=
  { n with
    w := roundAt n.snap.op n.S n.r.val n.w
    r := n.r + 1
    phase := if n.r.val + 1 < Config.rounds then .round else .post }

/-- One clock (R253). While IDLE the datapath does nothing (60_exceptions.md R228); POST whitens the words and makes the
completion writes of R185. -/
def cycleStep (s : State) : State :=
  match s.int.phase with
  | .idle => s
  | .ksInit => { s with int := cycleKsInit s.int }
  | .ksMix => { s with int := cycleKsMix s.int }
  | .pre => { s with int := cyclePre s.int }
  | .round => { s with int := cycleRound s.int }
  | .post =>
    let y := whitenOut s.int.snap.op s.int.S s.int.w
    finish y { s with int := { s.int with w := y } }

/-- `n` clocks. -/
def cycles : Nat → State → State
  | 0, s => s
  | n + 1, s => cycles n (cycleStep s)

end Sys2Proof.Machine
end

