-- ==== Sys2Proof/Machine/Commands.lean ====
section
/-! DEFINITION. The meanings of the command rows and of completion (44_commands.md R180 to R188).

ENC, DEC, ILLEGAL and CMD_WHILE_BUSY are CMD writes, named by what the written word is. Each has the effect of that write
in every state, so that the row chosen never contradicts the access it names: an ENC written while busy sets CMDOVR
(R188), and the write that CMD_WHILE_BUSY names is decoded when the core is idle (log 4). -/

namespace Sys2Proof.Machine

/-- ENC (R183). -/
def execEnc (blen : Byte) (s : State) : Host.Outcome State Fault Refusal :=
  .next (respondWritten (command (.enc blen) s))

/-- DEC (R184). -/
def execDec (blen : Byte) (s : State) : Host.Outcome State Fault Refusal :=
  .next (respondWritten (command (.dec blen) s))

/-- ILLEGAL (R187). The word is not kept (60_exceptions.md R211). -/
def execIllegal (_word : Word) (s : State) : Host.Outcome State Fault Refusal :=
  .next (respondWritten (command .illegal s))

/-- CMD_WHILE_BUSY (R188): CMDOVR to 1 and nothing else. -/
def execCmdWhileBusy (word : Word) (s : State) : Host.Outcome State Fault Refusal :=
  .next (respondWritten (if s.busy then setOverrun s else writeCmd word s))

/-- WR.CMD (R180). -/
def execWrCmd (wdata : Word) (s : State) : Host.Outcome State Fault Refusal :=
  .next (respondWritten (writeCmd wdata s))

/-- COMPLETE (R185). It is no access, so it makes no response. -/
def execComplete (s : State) : Host.Outcome State Fault Refusal :=
  .next (completeStep s)

end Sys2Proof.Machine
end

