-- ==== Sys2Proof/Machine/Registers.lean ====
section
/-! DEFINITION. The meanings of the register reads and writes (44_commands.md R189 to R203). Each is an aligned 32-bit
access and is answered with err = 0. -/

namespace Sys2Proof.Machine

/-- RD.ID (R189). -/
def execRdId (s : State) : Host.Outcome State Fault Refusal := .next (respondData (readReg .id s) s)

/-- WR.ID (R190): no effect. -/
def execWrId (_wdata : Word) (s : State) : Host.Outcome State Fault Refusal := .next (respondWritten s)

/-- RD.CTRL (R191). -/
def execRdCtrl (s : State) : Host.Outcome State Fault Refusal := .next (respondData (readReg .ctrl s) s)

/-- WR.CTRL (R192). -/
def execWrCtrl (wdata : Word) (s : State) : Host.Outcome State Fault Refusal :=
  .next (respondWritten (writeCtrl wdata s))

/-- RD.STATUS (R193). -/
def execRdStatus (s : State) : Host.Outcome State Fault Refusal := .next (respondData (readReg .status s) s)

/-- WR.STATUS (R194). -/
def execWrStatus (wdata : Word) (s : State) : Host.Outcome State Fault Refusal :=
  .next (respondWritten (writeStatus wdata s))

/-- RD.CMD (R195): zero, and no command. -/
def execRdCmd (s : State) : Host.Outcome State Fault Refusal := .next (respondData (readReg .cmd s) s)

/-- RD.KEYLEN (R196). -/
def execRdKeylen (s : State) : Host.Outcome State Fault Refusal := .next (respondData (readReg .keylen s) s)

/-- WR.KEYLEN (R197): no check. -/
def execWrKeylen (wdata : Word) (s : State) : Host.Outcome State Fault Refusal :=
  .next (respondWritten (writeKeylen wdata s))

/-- RD.KEY (R198): zero. -/
def execRdKey (k : Fin 8) (s : State) : Host.Outcome State Fault Refusal := .next (respondData (readReg (.key k) s) s)

/-- WR.KEY (R199). -/
def execWrKey (k : Fin 8) (wdata : Word) (s : State) : Host.Outcome State Fault Refusal :=
  .next (respondWritten (writeKey k wdata s))

/-- RD.DIN (R200). -/
def execRdDin (k : Fin 4) (s : State) : Host.Outcome State Fault Refusal := .next (respondData (readReg (.din k) s) s)

/-- WR.DIN (R201). -/
def execWrDin (k : Fin 4) (wdata : Word) (s : State) : Host.Outcome State Fault Refusal :=
  .next (respondWritten (writeDin k wdata s))

/-- RD.DOUT (R202): the most recent result, even while busy. -/
def execRdDout (k : Fin 4) (s : State) : Host.Outcome State Fault Refusal := .next (respondData (readReg (.dout k) s) s)

/-- WR.DOUT (R203): no effect. -/
def execWrDout (_k : Fin 4) (_wdata : Word) (s : State) : Host.Outcome State Fault Refusal := .next (respondWritten s)

end Sys2Proof.Machine
end

