-- ==== Sys2Proof/Machine/Reserved.lean ====
section
/-! DEFINITION. The meanings of the reserved offsets and of the malformed accesses (44_commands.md R204, R205). -/

namespace Sys2Proof.Machine

/-- An access to a reserved offset: a read gives zero, a write is ignored, err = 0 (R204, 20_memory.md R64). -/
def reservedAccess (dir : Dir) (s : State) : State :=
  match dir with
  | .read => respondData 0#32 s
  | .write _ => respondWritten s

/-- RSV.A (R204). -/
def execRsvA (dir : Dir) (s : State) : Host.Outcome State Fault Refusal := .next (reservedAccess dir s)

/-- RSV.B (R204). -/
def execRsvB (dir : Dir) (_n : Fin 2) (s : State) : Host.Outcome State Fault Refusal := .next (reservedAccess dir s)

/-- RSV.C (R204). -/
def execRsvC (dir : Dir) (_n : Fin 8) (s : State) : Host.Outcome State Fault Refusal := .next (reservedAccess dir s)

/-- RSV.D (R204). -/
def execRsvD (dir : Dir) (_n : Fin 32) (s : State) : Host.Outcome State Fault Refusal := .next (reservedAccess dir s)

/-- BUSERR.SIZE1 (R205). -/
def execBusErrSize1 (_dir : Dir) (_off : Byte) (s : State) : Host.Outcome State Fault Refusal := .next (raiseBusError s)

/-- BUSERR.SIZE2 (R205). -/
def execBusErrSize2 (_dir : Dir) (_off : Byte) (s : State) : Host.Outcome State Fault Refusal := .next (raiseBusError s)

/-- BUSERR.SIZE_RSV (R205). -/
def execBusErrSizeRsv (_dir : Dir) (_off : Byte) (s : State) : Host.Outcome State Fault Refusal :=
  .next (raiseBusError s)

/-- BUSERR.ODD (R205). -/
def execBusErrOdd (_dir : Dir) (_off : Byte) (s : State) : Host.Outcome State Fault Refusal := .next (raiseBusError s)

/-- BUSERR.HALF (R205). -/
def execBusErrHalf (_dir : Dir) (_off : Byte) (s : State) : Host.Outcome State Fault Refusal := .next (raiseBusError s)

end Sys2Proof.Machine
end

