-- ==== Sys2Proof/Machine/Dispatch.lean ====
section
/-! DEFINITION. The meaning of every operation: one arm per row of spec/opcode_table.json. -/

namespace Sys2Proof.Machine

/-- The effect of one operation. -/
def exec (i : Instr) (s : State) : Host.Outcome State Fault Refusal :=
  match i with
  | .enc blen => Sys2Proof.Machine.execEnc blen s
  | .dec blen => Sys2Proof.Machine.execDec blen s
  | .illegal word => Sys2Proof.Machine.execIllegal word s
  | .cmdWhileBusy word => Sys2Proof.Machine.execCmdWhileBusy word s
  | .complete => Sys2Proof.Machine.execComplete s
  | .rdId => Sys2Proof.Machine.execRdId s
  | .wrId wdata => Sys2Proof.Machine.execWrId wdata s
  | .rdCtrl => Sys2Proof.Machine.execRdCtrl s
  | .wrCtrl wdata => Sys2Proof.Machine.execWrCtrl wdata s
  | .rdStatus => Sys2Proof.Machine.execRdStatus s
  | .wrStatus wdata => Sys2Proof.Machine.execWrStatus wdata s
  | .rdCmd => Sys2Proof.Machine.execRdCmd s
  | .wrCmd wdata => Sys2Proof.Machine.execWrCmd wdata s
  | .rdKeylen => Sys2Proof.Machine.execRdKeylen s
  | .wrKeylen wdata => Sys2Proof.Machine.execWrKeylen wdata s
  | .rdKey k => Sys2Proof.Machine.execRdKey k s
  | .wrKey k wdata => Sys2Proof.Machine.execWrKey k wdata s
  | .rdDin k => Sys2Proof.Machine.execRdDin k s
  | .wrDin k wdata => Sys2Proof.Machine.execWrDin k wdata s
  | .rdDout k => Sys2Proof.Machine.execRdDout k s
  | .wrDout k wdata => Sys2Proof.Machine.execWrDout k wdata s
  | .rsvA dir => Sys2Proof.Machine.execRsvA dir s
  | .rsvB dir n => Sys2Proof.Machine.execRsvB dir n s
  | .rsvC dir n => Sys2Proof.Machine.execRsvC dir n s
  | .rsvD dir n => Sys2Proof.Machine.execRsvD dir n s
  | .busErrSize1 dir off => Sys2Proof.Machine.execBusErrSize1 dir off s
  | .busErrSize2 dir off => Sys2Proof.Machine.execBusErrSize2 dir off s
  | .busErrSizeRsv dir off => Sys2Proof.Machine.execBusErrSizeRsv dir off s
  | .busErrOdd dir off => Sys2Proof.Machine.execBusErrOdd dir off s
  | .busErrHalf dir off => Sys2Proof.Machine.execBusErrHalf dir off s

end Sys2Proof.Machine
end

