-- ==== Sys2Proof/Machine/Events.lean ====
section
/-! DEFINITION. What each input of the agenda does: resets (70_reset_and_hazards.md R240 to R243), the host's polling
loop (30_encoding.md R90), and the placing of one access for the next step. -/

namespace Sys2Proof.Machine

/-- `Reset()` (R240, R241): every piece of state gets its reset value. The inputs still to come are not state of the core
and stay (log 17). -/
def resetStep (s : State) : State := { State.reset with agenda := s.agenda }

/-- An access made while `rst` is high (R240, R243): reset wins, the access is ignored, a read gets 0 and err = 0. -/
def resetAccessStep (d : BitVec 11) (s : State) : State :=
  let t := resetStep s
  if d.getLsbD 10 then respondWritten t else respondData 0#32 t

/-- Whether the last response ends a poll: `(rdata & mask) == val` (30_encoding.md R90). -/
def pollDone (mask val : Word) : Option Response → Bool
  | some (.data v) => v &&& mask == val
  | _ => false

/-- What stays to be done after an unsuccessful read of a poll: the poll again, with one turn fewer before the core
sequencer's turn, which comes first when none is left (log 16). -/
def pollAgain (r : Reg) (mask val : Word) (turns : Nat) (rest : List Event) : List Event :=
  match turns with
  | 0 => .sequencer :: .poll r mask val 0 :: rest
  | n + 1 => .poll r mask val n :: rest

/-- The operation that `rd REG` is (30_encoding.md R90). -/
def readInstr (r : Reg) : Instr := decodeAccess (descriptor false 2 (regOffset r)) 0#32

/-- What a poll does with the outcome of its read. -/
def pollNext (r : Reg) (mask val : Word) (turns : Nat) (o : Host.Outcome State Fault Refusal) :
    Host.Outcome State Fault Refusal :=
  match o with
  | .next t =>
    .next (if pollDone mask val t.resp then t else { t with agenda := pollAgain r mask val turns t.agenda })
  | .fault f => .fault f
  | .refused f => .refused f

/-- One read of a poll. -/
def pollStep (r : Reg) (mask val : Word) (turns : Nat) (s : State) : Host.Outcome State Fault Refusal :=
  pollNext r mask val turns (exec (readInstr r) s)

/-- What one input does; `s` is the state without it. -/
def eventStep (e : Event) (s : State) : Host.Outcome State Fault Refusal :=
  match e with
  | .access d v => exec (decodeAccess d v) s
  | .poll r mask val turns => pollStep r mask val turns s
  | .sequencer => exec .complete s
  | .cycle => .next (cycleStep s)
  | .reset => .next (resetStep s)
  | .accessInReset d _ => .next (resetAccessStep d s)

/-- What happens when no input is left: a busy core completes, since "a core that stays BUSY is eventually taken"
(70_reset_and_hazards.md R252); an idle core does nothing (60_exceptions.md R228; log 1). -/
def quietStep (s : State) : Host.Outcome State Fault Refusal := exec .complete s

/-- The access that carries an instruction given as the opcode table numbers its bits: a descriptor with its wdata, or a
command word, which is the wdata of a CMD write (opcode_table.json, "carrier"). There is none where the bits above the
descriptor are not zero. -/
def fetchEvent (nbits w : Nat) : Option Event :=
  if 16 < nbits ∧ nbits ≤ 32 then some (.access 0x60C#11 (BitVec.ofNat 32 w))
  else if w % 65536 < 2048 then some (.access (BitVec.ofNat 11 w) (BitVec.ofNat 32 (w / 65536)))
  else none

end Sys2Proof.Machine
end

