-- ==== Sys2Proof/Machine/Step.lean ====
section
/-! DEFINITION. One step of the machine: the oldest input of the agenda, or, when there is none, what the core does by
itself. -/

namespace Sys2Proof.Machine

/-- One step. -/
def step (s : State) : Host.Outcome State Fault Refusal :=
  match s.agenda with
  | [] => quietStep s
  | e :: rest => eventStep e { s with agenda := rest }

/-- The state with one access placed as the next input: the host makes the access that carries the instruction (log 20).
Nothing else changes. -/
def State.withFetchWord (s : State) (nbits w : Nat) : State :=
  match fetchEvent nbits w with
  | some e => { s with agenda := e :: s.agenda }
  | none => s

end Sys2Proof.Machine
end

