-- ==== Sys2Proof/Machine/DataFormat.lean ====
section
/-! DEFINITION. Byte strings and words (00_scope.md R11, 20_memory.md R62, 40_data_format.md R100 to R102), and the byte
level operations of the source's contract (42_encrypt.md R145, 43_decrypt.md R163). -/

namespace Sys2Proof.Machine

/-- `LE32(s, k)` (R11). A byte string has 4m bytes and k is below m; the value past the end is not used. -/
def le32 (s : List Byte) (k : Nat) : Word :=
  s.getD (4 * k + 3) 0#8 ++ s.getD (4 * k + 2) 0#8 ++ s.getD (4 * k + 1) 0#8 ++ s.getD (4 * k) 0#8

/-- `UNLE32(w0, ..., w(m-1))` (R11). -/
def unle32 (ws : List Word) : List Byte := ws.flatMap wordBytes

/-- Byte `n` of the string that a group of word registers holds: bits [8(n mod 4)+7 : 8(n mod 4)] of word n div 4
(R62). -/
def byteOfWords (ws : List Word) (n : Nat) : Byte := (ws.getD (n / 4) 0#32).extractLsb' (8 * (n % 4)) 8

/-- `Split` (R100). -/
def split (blk : Vector Byte 16) : Block :=
  { a := le32 blk.toList 0, b := le32 blk.toList 1, c := le32 blk.toList 2, d := le32 blk.toList 3 }

/-- `Pack` (R102). -/
def pack (x : Block) : Vector Byte 16 := ⟨⟨unle32 [x.a, x.b, x.c, x.d]⟩, rfl⟩

/-- The key words `L[j] = LE32(key, j)` (R101), as the eight key registers would hold them. -/
def keyWords (key : List Byte) : Vector Word 8 := Vector.ofFn fun j => le32 key j.val

/-- The expanded key array of a key byte string, `c = b / 4` (R101, R120). -/
def keyScheduleBytes (p q : Word) (key : List Byte) : Vector Word 44 :=
  keySchedule p q (keyWords key) (key.length / 4)

/-- `encrypt(blk, key)` on byte strings (R145). -/
def encryptBytes (p q : Word) (key : List Byte) (blk : Vector Byte 16) : Vector Byte 16 :=
  pack (encrypt (keyScheduleBytes p q key) (split blk))

/-- `decrypt(blk, key)` on byte strings (R163). -/
def decryptBytes (p q : Word) (key : List Byte) (blk : Vector Byte 16) : Vector Byte 16 :=
  pack (decrypt (keyScheduleBytes p q key) (split blk))

end Sys2Proof.Machine
end

