-- ==== Sys2Proof/Machine/Script.lean ====
section
/-! DEFINITION. The host's side: bus accesses by offset and by address (20_memory.md R60, R67) and the bus-script
(30_encoding.md R90, R91). -/

namespace Sys2Proof.Machine

/-- The size code of an access of `n` bytes (R85). Every other size is one "the core does not support" (log 22). -/
def sizeCode (n : Nat) : BitVec 2 :=
  match n with
  | 1 => 0#2
  | 2 => 1#2
  | 4 => 2#2
  | _ => 3#2

/-- `BusRead(off, n)` (R60). -/
def busRead (off : Byte) (n : Nat) : Event := .access (descriptor false (sizeCode n) off) 0#32

/-- `BusWrite(off, n, v)` (R60). -/
def busWrite (off : Byte) (n : Nat) (v : Word) : Event := .access (descriptor true (sizeCode n) off) v

/-- The offset of a bus address within the window, `off = address - BASE` (R67); `none` for an address outside it, whose
routing "is the platform's business". -/
def windowOffset (addr : Nat) : Option Byte :=
  if Config.base ≤ addr ∧ addr < Config.base + 256 then some (BitVec.ofNat 8 (addr - Config.base)) else none

/-- A base statement of the bus-script (R90). -/
inductive Stmt where
  | wr (r : Reg) (imm : Word)
  | rd (r : Reg)
  | wrx (off : Byte) (n : Nat) (imm : Word)
  | rdx (off : Byte) (n : Nat)
  | poll (r : Reg) (mask val : Word)
deriving DecidableEq, Repr

/-- The input that a statement is. A poll makes `turns` further unsuccessful reads before the sequencer's turn. -/
def Stmt.event (turns : Nat) : Stmt → Event
  | .wr r imm => busWrite (regOffset r) 4 imm
  | .rd r => busRead (regOffset r) 4
  | .wrx off n imm => busWrite off n imm
  | .rdx off n => busRead off n
  | .poll r mask val => .poll r mask val turns

/-- A pseudo-instruction of the bus-script (R91). -/
inductive Pseudo where
  | enc
  | dec
  | wait
  | clr
  | key (ws : List Word)
  | blk (d0 d1 d2 d3 : Word)
  | res
deriving DecidableEq, Repr

/-- The expansion of a pseudo-instruction (R91). `key` writes the first eight of its words: there are eight key
registers. -/
def Pseudo.expand : Pseudo → List Stmt
  | .enc => [.wr .cmd 0x00001001#32]
  | .dec => [.wr .cmd 0x00001002#32]
  | .wait => [.poll .status 1#32 0#32]
  | .clr => [.wr .status 0x0000000E#32]
  | .key ws =>
    .wr .keylen (BitVec.ofNat 32 (4 * ws.length)) :: List.zipWith (fun k w => .wr (.key k) w) (List.finRange 8) ws
  | .blk d0 d1 d2 d3 => [.wr (.din 0) d0, .wr (.din 1) d1, .wr (.din 2) d2, .wr (.din 3) d3]
  | .res => [.rd (.dout 0), .rd (.dout 1), .rd (.dout 2), .rd (.dout 3)]

/-- A script as inputs of the agenda. -/
def scriptEvents (turns : Nat) (ps : List Pseudo) : List Event := (ps.flatMap Pseudo.expand).map (Stmt.event turns)

end Sys2Proof.Machine
end

