-- ==== Sys2Proof/Safety.lean ====
section
/-! DEFINITION. The machine invariant and what a safe run is. -/

namespace Sys2Proof.Machine

/-- The internal state of a running command, phase by phase: from KS_MIX on the index int.j is in 0 to c-1 (10_state.md
R42). The ranges of int.i, int.k and int.r (R42, R43) are those of their types, in every state. -/
def Internal.ready (n : Internal) : Prop :=
  match n.phase with
  | .idle | .ksInit => True
  | .ksMix | .pre | .round | .post => n.j.val < n.snap.c.toNat

/-- What holds in every state that the machine reaches. -/
structure State.Inv (s : State) : Prop where
  /-- DONE and ERR are never both 1 (10_state.md R25). -/
  notBoth : ¬ (s.done = true ∧ s.err = true)
  /-- ERRCODE is 0 exactly when ERR is 0 (R27). -/
  errcodeIff : s.errcode = .none ↔ s.err = false
  /-- While busy, DONE and ERR are 0 (44_commands.md R185, R194). -/
  busyClean : s.busy = true → s.done = false ∧ s.err = false
  /-- The phase is IDLE exactly when BUSY is 0 (10_state.md R39). -/
  phaseIff : s.int.phase = .idle ↔ s.busy = false
  /-- While busy, the snapshot holds a legal key word count (R38). -/
  countLegal : s.busy = true → 1 ≤ s.int.snap.c.toNat ∧ s.int.snap.c.toNat ≤ 8
  /-- While busy, the index of the key words is in range (R42). -/
  seqReady : s.busy = true → s.int.ready

/-- Two states that a host cannot tell apart: they differ in internal words only, no clock has moved the sequencer past
KS_INIT, and what a running command still needs of its snapshot is the same: the operation, the key word count, the block
and the first `c` key words (10_state.md R44, 44_commands.md R183). -/
def State.Agree (s t : State) : Prop :=
  t = { s with int := t.int } ∧ t.int.phase = s.int.phase ∧ (s.int.phase = .idle ∨ s.int.phase = .ksInit) ∧
    (s.busy = true →
      t.int.snap.op = s.int.snap.op ∧ t.int.snap.c = s.int.snap.c ∧ t.int.snap.blk = s.int.snap.blk ∧
        ∀ j : Fin 8, j.val < s.int.snap.c.toNat → t.int.snap.L.get j = s.int.snap.L.get j)

/-- A run from a state is safe if it never stops with a fault or a refusal. -/
def Safe (s : State) : Prop := ∀ n, ∃ t, Host.Core.run core n s = .next t

end Sys2Proof.Machine
end

