-- ==== Sys2Proof/WellFormed.lean ====
section
/-! DEFINITION. Which terms of `Instr` stand for an operation (30_encoding.md R84, R86). -/

namespace Sys2Proof

/-- ILLEGAL carries a word that is neither ENC nor DEC; the offset of BUSERR.ODD is odd; that of BUSERR.HALF is 2 mod 4.
Every other term stands for an operation. -/
def WellFormed (i : Instr) : Bool :=
  match i with
  | .illegal w => decodeCmd w == .illegal
  | .busErrOdd _ off => off.extractLsb 0 0 == 1
  | .busErrHalf _ off => off.extractLsb 1 0 == 2
  | .enc _ | .dec _ | .cmdWhileBusy _ | .complete
  | .rdId | .wrId _ | .rdCtrl | .wrCtrl _ | .rdStatus | .wrStatus _ | .rdCmd | .wrCmd _ | .rdKeylen | .wrKeylen _
  | .rdKey _ | .wrKey _ _ | .rdDin _ | .wrDin _ _ | .rdDout _ | .wrDout _ _
  | .rsvA _ | .rsvB _ _ | .rsvC _ _ | .rsvD _ _
  | .busErrSize1 _ _ | .busErrSize2 _ _ | .busErrSizeRsv _ _ => true

end Sys2Proof
end

