-- ==== Sys2Proof/Certificates/Slice0/Obligations.lean ====
section
/-! DEFINITION. The statements for the provers. Each docstring names the rules of spec/ it formalises; where a statement
rests on a choice of the model, the docstring names the log entry. -/

open Sys2Proof Sys2Proof.Machine

/-! ## Encoding -/

/-- Sanity: words written out from the encodings of 30_encoding.md R84 and R86 and of 95_test_vectors.md decode to the
operation they stand for. -/
def Obligations.KnownWordsDecode : Prop :=
  decodeTableWord 32 0x00001001 = some (.enc 16#8) ∧
  decodeTableWord 32 0x0000ff02 = some (.dec 255#8) ∧
  decodeTableWord 32 0x00011001 = some (.illegal 0x00011001#32) ∧
  decodeTableWord 16 0x608 = some (.wrStatus 0#32) ∧
  decodeTableWord 16 0x60C = some (.wrCmd 0#32) ∧
  decodeTableWord 16 0x238 = some (.rdKey 6) ∧
  decodeTableWord 16 0x25C = some (.rdDout 3) ∧
  decodeTableWord 16 0x21C = some (.rsvB .read 1) ∧
  decodeTableWord 16 0x6FC = some (.rsvD (.write 0#32) 31) ∧
  decodeTableWord 16 0x40C = some (.busErrSize1 (.write 0#32) 0x0C#8) ∧
  decodeTableWord 16 0x20E = some (.busErrHalf .read 0x0E#8)

/-- Decoding the encoding of a well-formed operation gives it back, with every operand at every value. CMD_WHILE_BUSY is
selected by state and not by bits, so its word is read with BUSY = 1; COMPLETE is not encoded and encode has no packet for
it (opcode_table.json). -/
def Obligations.DecodeOfEncodeIsIdentity : Prop :=
  ∀ (i : Instr), WellFormed i = true →
    (∀ w, i ≠ .cmdWhileBusy w) → i ≠ .complete → ∃ p, encode i = some p ∧ decode p.bytes = .ok i

/-- The other direction: the encoding of what a packet decodes to is the packet (the wdata of a read, which is "used only
by writes" (20_memory.md R60), is given as zero), and what is decoded is well-formed. -/
def Obligations.EncodeOfDecodeIsThePacket : Prop :=
  (∀ (d : BitVec 11) (v : Word), WellFormed (decodeAccess d v) = true ∧
    encode (decodeAccess d v) = some (.access d (if d.getLsbD 10 then v else 0#32))) ∧
  (∀ (w : Word) (busy : Bool), WellFormed (selectCommandRow busy w) = true ∧
    encode (selectCommandRow busy w) = some (.command w))

/-- 30_encoding.md R86: a descriptor matches exactly one row of the table, decoding finds that row, and where the row names
a register by number, k is OFF[4:2] for KEY and OFF[3:2] for DIN and DOUT. -/
def Obligations.EachDescriptorMatchesItsOneRow : Prop :=
  ∀ (d : BitVec 11) (v : Word),
    (∀ r : AccessRow, r.matches d = true ↔ (decodeAccess d v).accessRow = some r) ∧
    (∀ k, decodeAccess d v = .rdKey k → k.val = d.toNat / 4 % 8) ∧
    (∀ k w, decodeAccess d v = .wrKey k w → k.val = d.toNat / 4 % 8 ∧ w = v) ∧
    (∀ k, decodeAccess d v = .rdDin k → k.val = d.toNat / 4 % 4) ∧
    (∀ k w, decodeAccess d v = .wrDin k w → k.val = d.toNat / 4 % 4 ∧ w = v) ∧
    (∀ k, decodeAccess d v = .rdDout k → k.val = d.toNat / 4 % 4) ∧
    (∀ k w, decodeAccess d v = .wrDout k w → k.val = d.toNat / 4 % 4 ∧ w = v)

/-- 30_encoding.md R84 (with R80 to R83): the words of ENC and DEC are exactly those with the reserved fields zero and OP
1 or 2, BLEN being bits 15 to 8; every other word is ILLEGAL. -/
def Obligations.CommandWordsClassified : Prop :=
  ∀ (w : Word),
    (∀ b : Byte, decodeCmd w = .enc b ↔ w = (0#16 ++ b ++ 0x01#8 : BitVec 32)) ∧
    (∀ b : Byte, decodeCmd w = .dec b ↔ w = (0#16 ++ b ++ 0x02#8 : BitVec 32)) ∧
    (decodeCmd w = .illegal ↔
      w.toNat / 65536 ≠ 0 ∨ w.toNat / 16 % 16 ≠ 0 ∨ (w.toNat % 16 ≠ 1 ∧ w.toNat % 16 ≠ 2))

/-! ## The step -/

/-- When the next input is the access whose packet decodes to `i`, the step is `exec i` at the state without that input.
For a command word the access is a CMD write, and the row is the word's own when the core is idle. -/
def Obligations.StepRunsTheDecodedOperation : Prop :=
  (∀ (s : State) (d : BitVec 11) (v : Word) (i : Instr) (rest : List Event),
    s.agenda = .access d v :: rest → decode (Packet.access d v).bytes = .ok i →
      step s = exec i { s with agenda := rest }) ∧
  (∀ (s : State) (w : Word) (i : Instr) (rest : List Event),
    s.agenda = .access 0x60C#11 w :: rest → s.busy = false → decode (Packet.command w).bytes = .ok i →
      step s = exec i { s with agenda := rest })

/-- Placing an instruction for the next step makes the next step run what the decoder reads, busy or idle: how a program
comes to run is the model's choice (log 20), and so is the effect of a command row on a busy core (log 4). -/
def Obligations.PlacedInstructionIsRun : Prop :=
  ∀ (s : State) (nbits w : Nat) (i : Instr), decodeTableWord nbits w = some i →
    step (s.withFetchWord nbits w) = exec i s

/-- A CMD write has the effect of the row that takes it: CMD_WHILE_BUSY while busy, else the row of its word
(44_commands.md R180, R188; opcode_table.json "decode_order"). The rows that name a CMD write by its word have the effect
of that write also in the states where another row would take it, which is the model's choice (log 4). -/
def Obligations.CommandWriteRunsItsRow : Prop :=
  ∀ (s : State) (w : Word),
    exec (.wrCmd w) s = exec (selectCommandRow s.busy w) s ∧
    exec (.cmdWhileBusy w) s = exec (.wrCmd w) s ∧
    exec (decodeCommandWord w) s = exec (.wrCmd w) s

/-- With no input left a busy core completes and an idle core does nothing: the model's choice of log 1, after
70_reset_and_hazards.md R252 ("a core that stays BUSY is eventually taken") and 60_exceptions.md R228. -/
def Obligations.QuietCoreCompletesOrRests : Prop :=
  ∀ (s : State), s.agenda = [] →
    (s.busy = true → ∃ t, step s = .next t ∧ t.busy = false ∧ t.done = true ∧ t.dout = (pendingResult s.int).words) ∧
    (s.busy = false → step s = .next s)

/-- Nothing stops the machine: from every state every run goes on. 60_exceptions.md R210 says that there are two kinds of
failure and that "nothing else fails". That a misaligned or narrow access, which 93_implementation_defined.md U12 treats as a
`fault`, is a next state with the error response and neither a fault nor a refusal is the model's reading (log 21). -/
def Obligations.EveryRunIsSafe : Prop := ∀ (s : State), Safe s

/-! ## Reset and the invariant -/

/-- 10_state.md R45, 70_reset_and_hazards.md R241: the state that a reset leaves, from every state, and the state after
reset. The internal words that R45 leaves unspecified are not mentioned. -/
def Obligations.ResetLeavesTheStatedValues : Prop :=
  ∀ (s t : State) (rest : List Event),
    (s.agenda = .reset :: rest ∧ step s = .next t) ∨ t = State.reset →
    readReg .id t = 0x52433601#32 ∧ t.ie = false ∧ t.busy = false ∧ t.done = false ∧ t.err = false ∧
    t.cmdovr = false ∧ t.errcode = .none ∧ t.keylen = 0#8 ∧ (∀ k, t.key.get k = 0#32) ∧
    (∀ k, t.din.get k = 0#32) ∧ (∀ k, t.dout.get k = 0#32) ∧ irq t = false ∧ t.int.phase = .idle

/-- 70_reset_and_hazards.md R242: a reset while busy abandons the command. No completion follows: the sequencer's next
turn changes nothing, DOUT is 0 and DONE stays 0. -/
def Obligations.ResetAbandonsTheCommand : Prop :=
  ∀ (s : State) (rest : List Event), s.busy = true → s.agenda = .reset :: .sequencer :: rest →
    ∃ t, Host.Core.run core 2 s = .next t ∧ t.busy = false ∧ t.done = false ∧
      (∀ k, t.dout.get k = 0#32) ∧ (∀ k, t.key.get k = 0#32) ∧ t.agenda = rest

/-- 70_reset_and_hazards.md R240, R243: an access made while `rst` is high is ignored, whatever it is, a read reads 0 with
err = 0, and every register has its reset value. The internal words that 10_state.md R45 leaves unspecified are left open.
That such an access is one step, and the response of a write, are the model's choice (log 17). -/
def Obligations.AccessUnderResetIsIgnored : Prop :=
  ∀ (s : State) (d : BitVec 11) (v : Word) (rest : List Event), s.agenda = .accessInReset d v :: rest →
    ∃ t, step s = .next t ∧ t.int.phase = .idle ∧
      t = { State.reset with
        int := t.int
        agenda := rest
        resp := some (if d.getLsbD 10 then Response.written else Response.data 0#32) }

/-- The state after reset meets the invariant. -/
def Obligations.ResetMeetsTheInvariant : Prop := State.reset.Inv

/-- Every step keeps the invariant: DONE and ERR are never both 1 (10_state.md R25), ERRCODE is 0 exactly when ERR is 0
(R27), the phase is IDLE exactly when BUSY is 0 (R39), and the key word count and the index int.j of a running command are
in range (R38, R42). The other counters are in range in every state, by their types (R42, R43). -/
def Obligations.StepKeepsTheInvariant : Prop :=
  ∀ (s t : State), s.Inv → step s = .next t → t.Inv

/-! ## Register accesses -/

/-- 44_commands.md R189, R191, R193, R195, R196, R198, R200, R202: which descriptors are which read, and what each read
answers. Nothing else changes. -/
def Obligations.ReadsAnswerTheirRegister : Prop :=
  ∀ (s : State) (v : Word),
    decodeAccess 0x200#11 v = .rdId ∧ decodeAccess 0x204#11 v = .rdCtrl ∧ decodeAccess 0x208#11 v = .rdStatus ∧
    decodeAccess 0x20C#11 v = .rdCmd ∧ decodeAccess 0x210#11 v = .rdKeylen ∧
    (∀ k : Fin 8, decodeAccess (BitVec.ofNat 11 (0x220 + 4 * k.val)) v = .rdKey k) ∧
    (∀ k : Fin 4, decodeAccess (BitVec.ofNat 11 (0x240 + 4 * k.val)) v = .rdDin k) ∧
    (∀ k : Fin 4, decodeAccess (BitVec.ofNat 11 (0x250 + 4 * k.val)) v = .rdDout k) ∧
    exec .rdId s = .next { s with resp := some (.data 0x52433601#32) } ∧
    exec .rdCtrl s = .next { s with resp := some (.data (BitVec.ofNat 32 s.ie.toNat)) } ∧
    exec .rdStatus s = .next { s with resp := some (.data (BitVec.ofNat 32
      (s.busy.toNat + 2 * s.done.toNat + 4 * s.err.toNat + 8 * s.cmdovr.toNat + 256 * s.errcode.code.toNat))) } ∧
    exec .rdCmd s = .next { s with resp := some (.data 0#32) } ∧
    exec .rdKeylen s = .next { s with resp := some (.data (BitVec.ofNat 32 s.keylen.toNat)) } ∧
    (∀ k, exec (.rdKey k) s = .next { s with resp := some (.data 0#32) }) ∧
    (∀ k, exec (.rdDin k) s = .next { s with resp := some (.data (s.din.get k)) }) ∧
    (∀ k, exec (.rdDout k) s = .next { s with resp := some (.data (s.dout.get k)) })

/-- 44_commands.md R192, R197, R199, R201: the plain register writes, with their descriptors. Nothing but the
named register (and the response of the access) changes, irq follows a CTRL write at once, and reserved bits are ignored. -/
def Obligations.PlainWritesSetTheirRegister : Prop :=
  ∀ (s : State) (v : Word),
    decodeAccess 0x604#11 v = .wrCtrl v ∧ decodeAccess 0x610#11 v = .wrKeylen v ∧
    (∀ k : Fin 8, decodeAccess (BitVec.ofNat 11 (0x620 + 4 * k.val)) v = .wrKey k v) ∧
    (∀ k : Fin 4, decodeAccess (BitVec.ofNat 11 (0x640 + 4 * k.val)) v = .wrDin k v) ∧
    (∃ t, exec (.wrCtrl v) s = .next t ∧
      t = { s with ie := t.ie, resp := some .written } ∧ (t.ie = true ↔ v.toNat % 2 = 1) ∧
      irq t = (t.ie && (s.done || s.err))) ∧
    (∃ t, exec (.wrKeylen v) s = .next t ∧
      t = { s with keylen := t.keylen, resp := some .written } ∧ t.keylen.toNat = v.toNat % 256) ∧
    (∀ k : Fin 8, ∃ t, exec (.wrKey k v) s = .next t ∧ t = { s with key := t.key, resp := some .written } ∧
      ∀ j : Fin 8, t.key.get j = if j = k then v else s.key.get j) ∧
    (∀ k : Fin 4, ∃ t, exec (.wrDin k v) s = .next t ∧ t = { s with din := t.din, resp := some .written } ∧
      ∀ j : Fin 4, t.din.get j = if j = k then v else s.din.get j)

/-- 44_commands.md R190, R203, R204: writes of ID and DOUT and every access to a reserved offset have no effect; a
reserved offset reads zero; err = 0. The descriptors are those of 30_encoding.md R86. -/
def Obligations.IgnoredAccessesChangeNothing : Prop :=
  ∀ (s : State) (v : Word),
    decodeAccess 0x600#11 v = .wrId v ∧
    (∀ k : Fin 4, decodeAccess (BitVec.ofNat 11 (0x650 + 4 * k.val)) v = .wrDout k v) ∧
    decodeAccess 0x214#11 v = .rsvA .read ∧ decodeAccess 0x614#11 v = .rsvA (.write v) ∧
    (∀ n : Fin 2, decodeAccess (BitVec.ofNat 11 (0x218 + 4 * n.val)) v = .rsvB .read n ∧
      decodeAccess (BitVec.ofNat 11 (0x618 + 4 * n.val)) v = .rsvB (.write v) n) ∧
    (∀ n : Fin 8, decodeAccess (BitVec.ofNat 11 (0x260 + 4 * n.val)) v = .rsvC .read n ∧
      decodeAccess (BitVec.ofNat 11 (0x660 + 4 * n.val)) v = .rsvC (.write v) n) ∧
    (∀ n : Fin 32, decodeAccess (BitVec.ofNat 11 (0x280 + 4 * n.val)) v = .rsvD .read n ∧
      decodeAccess (BitVec.ofNat 11 (0x680 + 4 * n.val)) v = .rsvD (.write v) n) ∧
    exec (.wrId v) s = .next { s with resp := some .written } ∧
    (∀ k, exec (.wrDout k v) s = .next { s with resp := some .written }) ∧
    exec (.rsvA .read) s = .next { s with resp := some (.data 0#32) } ∧
    exec (.rsvA (.write v)) s = .next { s with resp := some .written } ∧
    (∀ n, exec (.rsvB .read n) s = .next { s with resp := some (.data 0#32) }) ∧
    (∀ n, exec (.rsvB (.write v) n) s = .next { s with resp := some .written }) ∧
    (∀ n, exec (.rsvC .read n) s = .next { s with resp := some (.data 0#32) }) ∧
    (∀ n, exec (.rsvC (.write v) n) s = .next { s with resp := some .written }) ∧
    (∀ n, exec (.rsvD .read n) s = .next { s with resp := some (.data 0#32) }) ∧
    (∀ n, exec (.rsvD (.write v) n) s = .next { s with resp := some .written })

/-- 44_commands.md R194: the W1C write of STATUS. Bits 1, 2 and 3 clear DONE, ERR with ERRCODE, and CMDOVR; every other
bit, BUSY's among them, is ignored. -/
def Obligations.StatusWriteClearsByOnes : Prop :=
  ∀ (s : State) (v : Word),
    decodeAccess 0x608#11 v = .wrStatus v ∧
    exec (.wrStatus v) s = .next { s with
      done := if v.getLsbD 1 then false else s.done
      err := if v.getLsbD 2 then false else s.err
      errcode := if v.getLsbD 2 then .none else s.errcode
      cmdovr := if v.getLsbD 3 then false else s.cmdovr
      resp := some .written }

/-- 44_commands.md R205: every access that is not an aligned 32-bit access is one of the five illegal rows, and each of them
answers err = 1 with rdata = 0 and changes no state. -/
def Obligations.IllegalAccessesChangeNothing : Prop :=
  (∀ (s : State) (dir : Dir) (off : Byte) (i : Instr),
    i = .busErrSize1 dir off ∨ i = .busErrSize2 dir off ∨ i = .busErrSizeRsv dir off ∨ i = .busErrOdd dir off ∨
      i = .busErrHalf dir off →
    ∃ r, exec i s = .next { s with resp := some r } ∧ r.isError = true ∧ r.rdata = some 0#32) ∧
  ∀ (d : BitVec 11) (v : Word), d.extractLsb 9 8 ≠ 2 ∨ d.extractLsb 1 0 ≠ 0 →
    ∃ dir off, decodeAccess d v = .busErrSize1 dir off ∨ decodeAccess d v = .busErrSize2 dir off ∨
      decodeAccess d v = .busErrSizeRsv dir off ∨ decodeAccess d v = .busErrOdd dir off ∨
      decodeAccess d v = .busErrHalf dir off

/-- 20_memory.md R63, 60_exceptions.md R215: an access is answered with an error exactly when it is not an aligned 32-bit
access, and then no state changes, even at the offset of CMD. -/
def Obligations.OnlyAlignedWordsReachARegister : Prop :=
  ∀ (s : State) (d : BitVec 11) (v : Word),
    (d.extractLsb 9 8 ≠ 2 ∨ d.extractLsb 1 0 ≠ 0 →
      ∃ r, exec (decodeAccess d v) s = .next { s with resp := some r } ∧ r.isError = true ∧ r.rdata = some 0#32) ∧
    (d.extractLsb 9 8 = 2 → d.extractLsb 1 0 = 0 →
      ∃ t r, exec (decodeAccess d v) s = .next t ∧ t.resp = some r ∧ r.isError = false)

/-- An aligned 32-bit read at any offset answers what `readOffset` gives and changes nothing else (20_memory.md R66: "No
read has a side effect"). -/
def Obligations.AlignedReadAnswersTheOffset : Prop :=
  ∀ (s : State) (off : Byte), off.extractLsb 1 0 = 0 →
    exec (decodeAccess (descriptor false 2 off) 0#32) s = .next { s with resp := some (.data (readOffset off s)) }

/-- The frame of the writes over the address space, read through `readOffset`: after a write of DINk, KEYLEN or CTRL only
the written register's own offset reads differently; after a write of KEYk, ID, DOUTk or a reserved offset no offset
does. -/
def Obligations.WritesChangeOnlyTheirOffset : Prop :=
  ∀ (s t : State) (v : Word) (off : Byte),
    (∀ k : Fin 4, exec (.wrDin k v) s = .next t →
      readOffset off t = if off.toNat = 0x40 + 4 * k.val then v else readOffset off s) ∧
    (exec (.wrKeylen v) s = .next t →
      readOffset off t = if off.toNat = 0x10 then BitVec.ofNat 32 (v.toNat % 256) else readOffset off s) ∧
    (exec (.wrCtrl v) s = .next t →
      readOffset off t = if off.toNat = 0x04 then BitVec.ofNat 32 (v.toNat % 2) else readOffset off s) ∧
    (∀ i : Instr, (∃ k, i = .wrKey k v) ∨ i = .wrId v ∨ (∃ k, i = .wrDout k v) ∨ i = .rsvA (.write v) ∨
        (∃ n, i = .rsvB (.write v) n) ∨ (∃ n, i = .rsvC (.write v) n) ∨ (∃ n, i = .rsvD (.write v) n) →
      exec i s = .next t → readOffset off t = readOffset off s)

/-- The frame of every operation, register by register: each register has the writers that 44_commands.md gives it and no
others, and no operation touches the inputs still to come. -/
def Obligations.EachRegisterHasItsWriters : Prop :=
  ∀ (s t : State) (i : Instr), exec i s = .next t →
    (t.key ≠ s.key → ∃ k v, i = .wrKey k v) ∧
    (t.din ≠ s.din → ∃ k v, i = .wrDin k v) ∧
    (t.keylen ≠ s.keylen → ∃ v, i = .wrKeylen v) ∧
    (t.ie ≠ s.ie → ∃ v, i = .wrCtrl v) ∧
    (t.dout ≠ s.dout → i = .complete) ∧
    (t.int ≠ s.int → i = .complete ∨ i.accessRow = some .wrCmd) ∧
    (t.busy ≠ s.busy → i = .complete ∨ i.accessRow = some .wrCmd) ∧
    ((t.done, t.err, t.cmdovr, t.errcode) ≠ (s.done, s.err, s.cmdovr, s.errcode) →
      i = .complete ∨ i.accessRow = some .wrCmd ∨ ∃ v, i = .wrStatus v) ∧
    t.agenda = s.agenda ∧ (t.resp = s.resp ∨ i ≠ .complete)

/-- 10_state.md R35: the interrupt level, a function of the state; it is 0 after reset. CMDOVR does not drive it (R26). -/
def Obligations.InterruptFollowsDoneAndErr : Prop :=
  ∀ (s : State),
    (irq s = true ↔ s.ie = true ∧ (s.done = true ∨ s.err = true)) ∧ irq { s with cmdovr := true } = irq s ∧
    irq State.reset = false

/-! ## Commands -/

/-- 44_commands.md R182 (with R180, R183, R184): an accepted command takes the snapshot and starts. DOUT, CMDOVR, CTRL and
the operand registers are unchanged, and so is every internal word but the snapshot and the phase. -/
def Obligations.AcceptedCommandTakesTheSnapshot : Prop :=
  ∀ (s : State), s.busy = false → s.keylen.toNat ∈ [4, 8, 12, 16, 20, 24, 28, 32] →
    let started (op : Op) : State := { s with
      busy := true
      done := false
      err := false
      errcode := .none
      resp := some .written
      int := { s.int with
        phase := .ksInit
        snap := { op := op, c := BitVec.ofNat 4 (s.keylen.toNat / 4), L := s.key, blk := s.din } } }
    exec (.enc 16#8) s = .next (started .enc) ∧ exec (.dec 16#8) s = .next (started .dec) ∧
      exec (.wrCmd 0x00001001#32) s = .next (started .enc) ∧ exec (.wrCmd 0x00001002#32) s = .next (started .dec)

/-- 44_commands.md R181, 60_exceptions.md R212: the three command errors of an idle core; an ILLEGAL word is one that R84
decodes so. DONE becomes 0, ERR 1, ERRCODE
the code; nothing else changes. -/
def Obligations.CommandErrorsAreRecorded : Prop :=
  ∀ (s : State), s.busy = false →
    let failed (code : ErrCode) : State :=
      { s with done := false, err := true, errcode := code, resp := some .written }
    (∀ w, WellFormed (.illegal w) = true → exec (.illegal w) s = .next (failed .illegalCmd)) ∧
    (∀ b : Byte, b ≠ 16#8 → exec (.enc b) s = .next (failed .blockSize) ∧ exec (.dec b) s = .next (failed .blockSize)) ∧
    (s.keylen.toNat ∉ [4, 8, 12, 16, 20, 24, 28, 32] →
      exec (.enc 16#8) s = .next (failed .keySize) ∧ exec (.dec 16#8) s = .next (failed .keySize))

/-- 44_commands.md R180, R181, 60_exceptions.md R214: a CMD write of any word to an idle core, from the bits of the word:
ILLEGAL_CMD, then BLOCK_SIZE, then KEY_SIZE, else the command is issued. -/
def Obligations.CommandWriteToAnIdleCore : Prop :=
  ∀ (s : State) (v : Word), s.busy = false →
    ∃ t, exec (.wrCmd v) s = .next t ∧ t.done = false ∧ t.cmdovr = s.cmdovr ∧ t.dout = s.dout ∧
      (if v.toNat / 65536 ≠ 0 ∨ v.toNat / 16 % 16 ≠ 0 ∨ (v.toNat % 16 ≠ 1 ∧ v.toNat % 16 ≠ 2) then
        t.errcode = .illegalCmd ∧ t.err = true ∧ t.busy = false ∧ t.int = s.int
      else if v.toNat / 256 % 256 ≠ 16 then t.errcode = .blockSize ∧ t.err = true ∧ t.busy = false ∧ t.int = s.int
      else if s.keylen.toNat ∉ [4, 8, 12, 16, 20, 24, 28, 32] then
        t.errcode = .keySize ∧ t.err = true ∧ t.busy = false ∧ t.int = s.int
      else t.errcode = .none ∧ t.err = false ∧ t.busy = true ∧ t.int.phase = .ksInit ∧
        t.int.snap.op = (if v.toNat % 16 = 1 then .enc else .dec))

/-- 44_commands.md R188: a CMD write while busy sets CMDOVR and nothing else, whatever the word; err = 0. -/
def Obligations.CommandWriteWhileBusyIsDropped : Prop :=
  ∀ (s : State) (w : Word), s.busy = true →
    exec (.cmdWhileBusy w) s = .next { s with cmdovr := true, resp := some .written } ∧
    exec (.wrCmd w) s = .next { s with cmdovr := true, resp := some .written }

/-- The STATUS words of the three errors (95_test_vectors.md section 2.7; 60_exceptions.md R211, 10_state.md R28), read
after a failed command of a core whose CMDOVR is 0. -/
def Obligations.StatusWordsOfTheErrors : Prop :=
  ∀ (s t : State) (w : Word), s.busy = false → s.cmdovr = false → exec (.wrCmd w) s = .next t → t.err = true →
    readReg .status t =
      (if decodeCmd w = .illegal then 0x104#32 else if w.toNat / 256 % 256 ≠ 16 then 0x204#32 else 0x304#32)

/-- 60_exceptions.md R222: the outcome of an earlier command leaves no trace in that of the next. -/
def Obligations.NextCommandForgetsTheLastOutcome : Prop :=
  ∀ (s : State) (w : Word) (done err : Bool) (code : ErrCode), s.busy = false →
    exec (.wrCmd w) { s with done := done, err := err, errcode := code } = exec (.wrCmd w) s

/-- 60_exceptions.md R213: only a CMD write made while idle raises a command error. -/
def Obligations.OnlyIdleCommandWritesRaise : Prop :=
  ∀ (s t : State) (i : Instr), exec i s = .next t → s.err = false → t.err = true →
    s.busy = false ∧ i.accessRow = some .wrCmd

/-- 44_commands.md R185: completion, from the phase that issue leaves. DOUT0 to DOUT3 get the words of the result, BUSY
becomes 0, DONE 1 and the phase IDLE in one step; CMDOVR, ERR, ERRCODE and every other register are unchanged. The internal
words but the phase, which 10_state.md R38 leaves unspecified while idle, are left open. P and Q are the defaults of
00_scope.md R5 (log 9). -/
def Obligations.CompletionWritesTheResult : Prop :=
  ∀ (s : State), s.busy = true → s.int.phase = .ksInit →
    let S := keySchedule 0xB7E15163#32 0x9E3779B9#32 s.int.snap.L s.int.snap.c.toNat
    let x : Block := ⟨s.int.snap.blk.get 0, s.int.snap.blk.get 1, s.int.snap.blk.get 2, s.int.snap.blk.get 3⟩
    let y := if s.int.snap.op = .enc then encrypt S x else decrypt S x
    ∃ u, exec .complete s = .next u ∧ u.int.phase = .idle ∧
      u = { s with dout := #v[y.a, y.b, y.c, y.d], busy := false, done := true, int := u.int }

/-- Completion (44_commands.md R185) at whatever point it is taken: however many clocks of the nominal sequencer
(70_reset_and_hazards.md R253, non-normative; log 8) have passed since issue, completion writes the result of the snapshot
that issue took. ERR and ERRCODE are 0, CMDOVR is unchanged, and irq is 1 if CTRL.IE is. That a completion after clocks
finishes the phases that are left is the model's choice (log 7); P and Q are the defaults of 00_scope.md R5 (log 9). -/
def Obligations.CompletionAtAnyPointWritesTheSnapshotsResult : Prop :=
  ∀ (s : State) (n : Nat), s.Inv → s.busy = true → s.int.phase = .ksInit → n < 155 →
    let S := keySchedule 0xB7E15163#32 0x9E3779B9#32 s.int.snap.L s.int.snap.c.toNat
    let x : Block := ⟨s.int.snap.blk.get 0, s.int.snap.blk.get 1, s.int.snap.blk.get 2, s.int.snap.blk.get 3⟩
    let y := if s.int.snap.op = .enc then encrypt S x else decrypt S x
    ∃ u, exec .complete (cycles n s) = .next u ∧ u.int.phase = .idle ∧
      u = { s with dout := #v[y.a, y.b, y.c, y.d], busy := false, done := true, int := u.int } ∧
      u.err = false ∧ u.errcode = .none ∧ irq u = s.ie

/-- Completion is enabled only while BUSY = 1 (44_commands.md R185). The turn of an idle sequencer changes nothing, which
is the model's choice (log 3). -/
def Obligations.IdleSequencerChangesNothing : Prop :=
  ∀ (s : State), s.busy = false → exec .complete s = .next s

/-- DOUT changes only at a completion, or by reset (10_state.md R33, 70_reset_and_hazards.md R247). -/
def Obligations.DoutChangesOnlyAtCompletion : Prop :=
  ∀ (s t : State), s.Inv → step s = .next t → t.dout ≠ s.dout →
    (s.busy = true ∧ t.busy = false ∧ t.done = true) ∨
    (∃ rest, s.agenda = .reset :: rest) ∨ (∃ d v rest, s.agenda = .accessInReset d v :: rest)

/-- 20_memory.md R72, 44_commands.md R188: no access disturbs a running command. Whatever the host does while the core is
busy, BUSY stays 1 and the snapshot, the rest of the internal state and DOUT are unchanged. -/
def Obligations.NoAccessDisturbsARunningCommand : Prop :=
  ∀ (s t : State) (i : Instr), s.busy = true → i ≠ .complete → exec i s = .next t →
    t.busy = true ∧ t.int = s.int ∧ t.dout = s.dout

/-- 60_exceptions.md R216: when a host access and a completion fall in the same cycle, the access comes first. A W1C of
STATUS then leaves DONE = 1, and a CMD write counts as made while busy. -/
def Obligations.AccessInTheCycleOfCompletion : Prop :=
  ∀ (s : State) (v : Word) (rest : List Event), s.busy = true →
    (s.agenda = .access 0x608#11 v :: .sequencer :: rest →
      ∃ t, Host.Core.run core 2 s = .next t ∧ t.busy = false ∧ t.done = true) ∧
    (s.agenda = .access 0x60C#11 v :: .sequencer :: rest →
      ∃ t, Host.Core.run core 2 s = .next t ∧ t.busy = false ∧ t.done = true ∧ t.cmdovr = true)

/-! ## Keys and hidden state -/

/-- The key registers and the internal state never show in a response (10_state.md R31, 60_exceptions.md R227). -/
def Obligations.KeysAndHiddenStateNeverAnswered : Prop :=
  ∀ (s t t' : State) (key : Vector Word 8) (int : Internal),
    step s = .next t → step { s with key := key, int := int } = .next t' → t'.resp = t.resp

/-- States that a host cannot tell apart stay so: nothing in the internal state but what the running command still needs
of its snapshot changes any later register value or response (10_state.md R44, 44_commands.md R183). The nominal clock is
left out, since it shows only in how long BUSY stays 1. -/
def Obligations.HiddenWordsNeverShow : Prop :=
  ∀ (s t s' t' : State), s.Inv → s.Agree t → (∀ rest, s.agenda ≠ .cycle :: rest) →
    step s = .next s' → step t = .next t' → s'.Agree t'

/-! ## The cipher -/

/-- 00_scope.md R10: a rotation moves bit i to place i + n (mod 32), and rotr undoes rotl. -/
def Obligations.RotationsMoveBitsModThirtyTwo : Prop :=
  ∀ (x : Word) (n i : Nat), i < 32 →
    (rotl x n).getLsbD ((i + n) % 32) = x.getLsbD i ∧ (rotr x n).getLsbD i = x.getLsbD ((i + n) % 32) ∧
      rotr (rotl x n) n = x

/-- 41_key_schedule.md R121: S[k] = P + k Q mod 2^32. -/
def Obligations.InitialArrayIsArithmetic : Prop :=
  ∀ (p q : Word) (k : Fin 44), (initS p q).get k = p + BitVec.ofNat 32 k.val * q

/-- 41_key_schedule.md R122, R125: one iteration: the new KA and KB, and their write-back; every other word of S and L is
unchanged. -/
def Obligations.MixingIterationWritesBack : Prop :=
  ∀ (c : Nat) (m : Mix), 1 ≤ c → c ≤ 8 →
    let n := mixStep c m
    n.ka = rotl (m.S.get m.i + m.ka + m.kb) 3 ∧
    n.kb = rotl (m.L.get m.j + n.ka + m.kb) (n.ka + m.kb).toNat ∧
    (∀ x : Fin 44, n.S.get x = if x = m.i then n.ka else m.S.get x) ∧
    (∀ x : Fin 8, n.L.get x = if x = m.j then n.kb else m.L.get x) ∧
    n.i.val = (m.i.val + 1) % 44 ∧ n.j.val = (m.j.val + 1) % c

/-- 41_key_schedule.md R123, R124: after n iterations from the start, i is n mod 44 and j is n mod c; the schedule runs
132 of them for every legal c. -/
def Obligations.MixingIndicesAdvance : Prop :=
  ∀ (p q : Word) (L : Vector Word 8) (c n : Nat), 1 ≤ c → c ≤ 8 →
    (mixLoop c n (mixStart p q L)).i.val = n % 44 ∧ (mixLoop c n (mixStart p q L)).j.val = n % c ∧
      keySchedule p q L c = (mixLoop c 132 (mixStart p q L)).S

/-- 41_key_schedule.md R126, 44_commands.md R183: the key schedule depends only on the first c key words. -/
def Obligations.ScheduleReadsOnlyItsKeyWords : Prop :=
  ∀ (p q : Word) (L L' : Vector Word 8) (c : Nat), 1 ≤ c → c ≤ 8 →
    (∀ j : Fin 8, j.val < c → L'.get j = L.get j) → keySchedule p q L' c = keySchedule p q L c

/-- 42_encrypt.md R145 (with R140 to R144): encryption, step by step: pre-whitening, the rounds 0 to 19 in this order, each
with its quadratic words t and u, its two new words and the register rotation, then post-whitening; and the byte-level
operation. Rotations are the library's. -/
def Obligations.EncryptFollowsItsRule : Prop :=
  (∀ (S : Vector Word 44) (a b c d : Word),
    let f (x : Word) : Word := (x * (2#32 * x + 1#32)).rotateLeft 5
    let round (x : Block) (i : Nat) : Block :=
      ⟨x.b, (x.c ^^^ f x.d).rotateLeft (f x.b).toNat + S.getD (2 * i + 3) 0#32, x.d,
        (x.a ^^^ f x.b).rotateLeft (f x.d).toNat + S.getD (2 * i + 2) 0#32⟩
    let z := (List.range 20).foldl round ⟨a, b + S.get 0, c, d + S.get 1⟩
    encrypt S ⟨a, b, c, d⟩ = ⟨z.a + S.get 42, z.b, z.c + S.get 43, z.d⟩) ∧
  ∀ (p q : Word) (key : List Byte) (blk : Vector Byte 16),
    encryptBytes p q key blk = pack (encrypt (keySchedule p q (keyWords key) (key.length / 4)) (split blk))

/-- 43_decrypt.md R163 (with R160 to R162): decryption, step by step: inverse post-whitening, the inverse rounds 19 down to
0, then inverse pre-whitening; and the byte-level operation. Rotations are the library's. -/
def Obligations.DecryptFollowsItsRule : Prop :=
  (∀ (S : Vector Word 44) (a b c d : Word),
    let f (x : Word) : Word := (x * (2#32 * x + 1#32)).rotateLeft 5
    let round (x : Block) (i : Nat) : Block :=
      ⟨(x.d - S.getD (2 * i + 2) 0#32).rotateRight (f x.c).toNat ^^^ f x.a, x.a,
        (x.b - S.getD (2 * i + 3) 0#32).rotateRight (f x.a).toNat ^^^ f x.c, x.c⟩
    let z := (List.range 20).reverse.foldl round ⟨a - S.get 42, b, c - S.get 43, d⟩
    decrypt S ⟨a, b, c, d⟩ = ⟨z.a, z.b - S.get 0, z.c, z.d - S.get 1⟩) ∧
  ∀ (p q : Word) (key : List Byte) (blk : Vector Byte 16),
    decryptBytes p q key blk = pack (decrypt (keySchedule p q (keyWords key) (key.length / 4)) (split blk))

/-- 43_decrypt.md R164: the inverse law, in both directions. -/
def Obligations.DecryptInvertsEncrypt : Prop :=
  ∀ (S : Vector Word 44) (x : Block), decrypt S (encrypt S x) = x ∧ encrypt S (decrypt S x) = x

/-- 44_commands.md R184: after ENC and DEC under the same key, with DIN set to the ENC's DOUT, DOUT equals the original
DIN. -/
def Obligations.EncThenDecRestoresTheBlock : Prop :=
  ∀ (s : State), s.busy = false → s.keylen.toNat ∈ [4, 8, 12, 16, 20, 24, 28, 32] →
    ∃ s1 s2 s3 s4, exec (.enc 16#8) s = .next s1 ∧ exec .complete s1 = .next s2 ∧
      exec (.dec 16#8) { s2 with din := s2.dout } = .next s3 ∧ exec .complete s3 = .next s4 ∧
      s4.dout = s.din ∧ s4.done = true ∧ s4.err = false

/-- 40_data_format.md R100, R102: Pack and Split are inverse to each other, and byte n of a block string is bits
[8(n mod 4)+7 : 8(n mod 4)] of word n div 4 (20_memory.md R62). -/
def Obligations.PackAndSplitAreInverse : Prop :=
  (∀ blk : Vector Byte 16, pack (split blk) = blk) ∧ (∀ x : Block, split (pack x) = x) ∧
  (∀ (blk : Vector Byte 16) (n : Fin 16), byteOfWords (split blk).words.toList n.val = blk.get n) ∧
  (∀ (key : List Byte) (n : Nat), key.length ≤ 32 → n < key.length →
    byteOfWords (keyWords key).toList n = key.getD n 0#8)

/-- The byte-level round trip for every key and block (43_decrypt.md R164, 95_test_vectors.md section 1, S1 and S5). -/
def Obligations.BytesRoundTrip : Prop :=
  ∀ (p q : Word) (key : List Byte) (blk : Vector Byte 16),
    decryptBytes p q key (encryptBytes p q key blk) = blk ∧ encryptBytes p q key (decryptBytes p q key blk) = blk

/-- The core does what the source's contract says (42_encrypt.md R145, 43_decrypt.md R163, 40_data_format.md R100 to R102):
with the words of a key of legal length in KEYLEN and KEY, and those of a block in DIN, ENC and its completion leave in DOUT
the words of `encrypt(block, key)`, and DEC those of `decrypt(block, key)`. Key registers past the key are arbitrary. P and Q
are the defaults of 00_scope.md R5 (log 9). -/
def Obligations.CoreMeetsTheByteContract : Prop :=
  ∀ (s : State) (key : List Byte) (blk : Vector Byte 16),
    s.busy = false → key.length ∈ [4, 8, 12, 16, 20, 24, 28, 32] → s.keylen.toNat = key.length →
    (∀ j : Fin 8, j.val < key.length / 4 → s.key.get j = le32 key j.val) →
    (∀ k : Fin 4, s.din.get k = le32 blk.toList k.val) →
    (∃ t u, exec (.enc 16#8) s = .next t ∧ exec .complete t = .next u ∧ u.busy = false ∧ u.done = true ∧
      pack (Block.ofWords u.dout) = encryptBytes 0xB7E15163#32 0x9E3779B9#32 key blk) ∧
    (∃ t u, exec (.dec 16#8) s = .next t ∧ exec .complete t = .next u ∧ u.busy = false ∧ u.done = true ∧
      pack (Block.ofWords u.dout) = decryptBytes 0xB7E15163#32 0x9E3779B9#32 key blk)

/-! ## The nominal sequencer and the host's side -/

/-- 70_reset_and_hazards.md R253: the nominal sequencer implements the completion step. A clock of a busy core either
changes internal words only, and leaves the result of the running command what it was, or is the completion itself. -/
def Obligations.ClockRefinesCompletion : Prop :=
  ∀ (s : State), s.Inv → s.busy = true →
    let t := cycleStep s
    t.Inv ∧
    ((t.busy = true ∧ t = { s with int := t.int } ∧ pendingResult t.int = pendingResult s.int) ∨
      t = { completeStep s with int := t.int })

/-- 70_reset_and_hazards.md R252, R253: from issue the nominal sequencer is busy for 155 clocks, for every key length and
both operations, and then has written exactly what completion writes. -/
def Obligations.NominalLatencyIsOneFiftyFive : Prop :=
  ∀ (s : State), s.Inv → s.busy = true → s.int.phase = .ksInit →
    (∀ n, n < 155 → (cycles n s).busy = true) ∧
      cycles 155 s = { completeStep s with int := (cycles 155 s).int }

/-- 70_reset_and_hazards.md R252, 30_encoding.md R91: `wait` ends. However many unsuccessful reads come before the
sequencer's turn (log 16), the poll is over in finitely many steps, with BUSY = 0 read. -/
def Obligations.WaitTerminates : Prop :=
  ∀ (s : State) (turns : Nat) (rest : List Event), s.Inv →
    s.agenda = (Pseudo.wait.expand.map (Stmt.event turns)) ++ rest →
    ∃ n t, n ≤ turns + 3 ∧ Host.Core.run core n s = .next t ∧ t.agenda = rest ∧ t.busy = false ∧
      (s.busy = true → t.done = true ∧ t.dout = (pendingResult s.int).words)

/-- 30_encoding.md R91: the expansions of the pseudo-instructions, as the accesses they are. -/
def Obligations.PseudoInstructionsExpand : Prop :=
  ∀ (n : Nat) (d0 d1 d2 d3 : Word),
    scriptEvents n [.enc] = [.access 0x60C#11 0x00001001#32] ∧
    scriptEvents n [.dec] = [.access 0x60C#11 0x00001002#32] ∧
    scriptEvents n [.wait] = [.poll .status 0x00000001#32 0x00000000#32 n] ∧
    scriptEvents n [.clr] = [.access 0x608#11 0x0000000E#32] ∧
    scriptEvents n [.blk d0 d1 d2 d3] =
      [.access 0x640#11 d0, .access 0x644#11 d1, .access 0x648#11 d2, .access 0x64C#11 d3] ∧
    scriptEvents n [.res] =
      [.access 0x250#11 0#32, .access 0x254#11 0#32, .access 0x258#11 0#32, .access 0x25C#11 0#32] ∧
    ∀ ws : List Word, ws.length ≤ 8 →
      scriptEvents n [.key ws] = .access 0x610#11 (BitVec.ofNat 32 (4 * ws.length)) ::
        ws.mapIdx (fun k w => .access (BitVec.ofNat 11 (0x620 + 4 * k)) w)

/-- 20_memory.md R67: the window is the 256 addresses from BASE on, whatever the platform's BASE; BASE is a multiple of
256. -/
def Obligations.WindowStandsAtBase : Prop :=
  Config.base % 256 = 0 ∧ (∀ off : Byte, windowOffset (Config.base + off.toNat) = some off) ∧
    ∀ addr, windowOffset addr = none ↔ addr < Config.base ∨ Config.base + 256 ≤ addr
end

