-- ==== Sys2Proof/Laws/Cipher.lean ====
section
/-! SUPPORT. Small laws of the cipher's loops and of the words of a block. -/

namespace Sys2Proof.Machine

/-! ## Rotations as the library's -/

theorem rotl_eq_rotateLeft (x : Word) (n : Nat) : rotl x n = x.rotateLeft n := by
  unfold rotl
  split
  · rename_i h
    have : x >>> 32 = 0#32 := BitVec.ushiftRight_eq_zero (Nat.le_refl 32)
    simp [BitVec.rotateLeft, BitVec.rotateLeftAux, h, this]
  · simp [BitVec.rotateLeft, BitVec.rotateLeftAux]

theorem rotr_eq_rotateRight (x : Word) (n : Nat) : rotr x n = x.rotateRight n := by
  unfold rotr
  split
  · rename_i h
    have : x <<< 32 = 0#32 := BitVec.shiftLeft_eq_zero (Nat.le_refl 32)
    simp [BitVec.rotateRight, BitVec.rotateRightAux, h, this]
  · simp [BitVec.rotateRight, BitVec.rotateRightAux]

/-! ## Loops -/

@[simp] theorem mixLoop_zero (c : Nat) (m : Mix) : mixLoop c 0 m = m := rfl
theorem mixLoop_succ (c n : Nat) (m : Mix) : mixLoop c (n + 1) m = mixLoop c n (mixStep c m) := rfl

/-- The last iteration of a loop, split off. -/
theorem mixLoop_last (c n : Nat) (m : Mix) : mixLoop c (n + 1) m = mixStep c (mixLoop c n m) := by
  induction n generalizing m with
  | zero => rfl
  | succ n ih => rw [mixLoop_succ, ih, ← mixLoop_succ]

@[simp] theorem mixStep_i (c : Nat) (m : Mix) : (mixStep c m).i = m.i + 1 := rfl
@[simp] theorem mixStep_j (c : Nat) (m : Mix) : (mixStep c m).j = nextJ c m.j := rfl

/-- For a legal count the index j stays below it. -/
theorem nextJ_val {c : Nat} (h1 : 1 ≤ c) (h8 : c ≤ 8) (j : Fin 8) : (nextJ c j).val = (j.val + 1) % c := by
  have : (j.val + 1) % c < c := Nat.mod_lt _ h1
  simp only [nextJ, Fin.ofNat]
  omega

theorem mixIterations_legal {c : Nat} (h8 : c ≤ 8) : mixIterations c = 132 := by
  simp only [mixIterations]
  omega

@[simp] theorem encRounds_zero (S : Vector Word 44) (i : Nat) (x : Block) : encRounds S 0 i x = x := rfl
theorem encRounds_succ (S : Vector Word 44) (n i : Nat) (x : Block) :
    encRounds S (n + 1) i x = encRounds S n (i + 1) (encRound S i x) := rfl
@[simp] theorem decRounds_zero (S : Vector Word 44) (x : Block) : decRounds S 0 x = x := rfl
theorem decRounds_succ (S : Vector Word 44) (n : Nat) (x : Block) :
    decRounds S (n + 1) x = decRounds S n (decRound S n x) := rfl

/-- The last round of a run of rounds, split off. -/
theorem encRounds_last (S : Vector Word 44) (n i : Nat) (x : Block) :
    encRounds S (n + 1) i x = encRound S (i + n) (encRounds S n i x) := by
  induction n generalizing i x with
  | zero => rfl
  | succ n ih =>
    rw [encRounds_succ, ih, encRounds_succ]
    congr 1
    omega

/-! ## The counters of the nominal sequencer -/

/-- A running command has 132 iterations, whatever the four bits of its key word count (41_key_schedule.md R123). -/
@[simp] theorem iterations_eq (n : Internal) : n.iterations = 132 := by
  have := n.snap.c.isLt
  simp only [Internal.iterations, mixIterations]
  omega

@[simp] theorem cycleKsInit_snap (n : Internal) : (cycleKsInit n).snap = n.snap := rfl
@[simp] theorem cycleKsInit_phase (n : Internal) : (cycleKsInit n).phase = .ksMix := rfl
@[simp] theorem cycleKsInit_k (n : Internal) : (cycleKsInit n).k = 0 := rfl
@[simp] theorem cycleKsInit_mix (n : Internal) :
    (cycleKsInit n).mix = mixStart Config.rc6P Config.rc6Q n.snap.L := rfl
@[simp] theorem cycleKsMix_op (n : Internal) : (cycleKsMix n).snap.op = n.snap.op := rfl
@[simp] theorem cycleKsMix_c (n : Internal) : (cycleKsMix n).snap.c = n.snap.c := rfl
@[simp] theorem cycleKsMix_blk (n : Internal) : (cycleKsMix n).snap.blk = n.snap.blk := rfl
@[simp] theorem cycleKsMix_mix (n : Internal) : (cycleKsMix n).mix = mixStep n.snap.c.toNat n.mix := rfl
@[simp] theorem cyclePre_snap (n : Internal) : (cyclePre n).snap = n.snap := rfl
@[simp] theorem cyclePre_phase (n : Internal) : (cyclePre n).phase = .round := rfl
@[simp] theorem cyclePre_S (n : Internal) : (cyclePre n).S = n.S := rfl
@[simp] theorem cyclePre_r (n : Internal) : (cyclePre n).r = 0 := rfl
@[simp] theorem cyclePre_w (n : Internal) :
    (cyclePre n).w = whitenIn n.snap.op n.S (Block.ofWords n.snap.blk) := rfl
@[simp] theorem cycleRound_snap (n : Internal) : (cycleRound n).snap = n.snap := rfl
@[simp] theorem cycleRound_S (n : Internal) : (cycleRound n).S = n.S := rfl
@[simp] theorem cycleRound_w (n : Internal) : (cycleRound n).w = roundAt n.snap.op n.S n.r.val n.w := rfl
@[simp] theorem mix_S (n : Internal) : n.mix.S = n.S := rfl

/-- What a clock of KS_MIX does: one iteration, and k and the phase advance, or the last iteration is over. -/
theorem cycleKsMix_cases (n : Internal) :
    (n.k.val + 1 < 132 ∧ (cycleKsMix n).k.val = n.k.val + 1 ∧ (cycleKsMix n).phase = .ksMix) ∨
    (n.k.val = 131 ∧ (cycleKsMix n).k.val = 0 ∧ (cycleKsMix n).phase = .pre) := by
  have := n.k.isLt
  by_cases h : n.k.val + 1 < 132
  · exact .inl ⟨h, Fin.val_add_one_of_lt' h, by simp [cycleKsMix, h]⟩
  · have e : n.k = Fin.last 131 := Fin.ext (by simp only [Fin.val_last]; omega)
    exact .inr ⟨by omega, by simp [cycleKsMix, e], by simp [cycleKsMix, h]⟩

/-- What a clock of ROUND does: one round, and r and the phase advance, or the last round is over. -/
theorem cycleRound_cases (n : Internal) :
    (n.r.val + 1 < 20 ∧ (cycleRound n).r.val = n.r.val + 1 ∧ (cycleRound n).phase = .round) ∨
    (n.r.val = 19 ∧ (cycleRound n).r.val = 0 ∧ (cycleRound n).phase = .post) := by
  have := n.r.isLt
  by_cases h : n.r.val + 1 < 20
  · exact .inl ⟨h, Fin.val_add_one_of_lt' h, by simp [cycleRound, Config.rounds, h]⟩
  · have e : n.r = Fin.last 19 := Fin.ext (by simp only [Fin.val_last]; omega)
    exact .inr ⟨by omega, by simp [cycleRound, e], by simp [cycleRound, Config.rounds, h]⟩

/-! ## The words of a block -/

@[simp] theorem ofWords_words (x : Block) : Block.ofWords x.words = x := rfl

@[simp] theorem words_ofWords (v : Vector Word 4) : (Block.ofWords v).words = v := by
  ext i hi
  match i, hi with
  | 0, _ | 1, _ | 2, _ | 3, _ => rfl

/-- An entry that the rules use is an entry of the array. -/
theorem roundKey_get (S : Vector Word 44) (n : Fin 44) : roundKey S n.val = S.get n := by
  simp [roundKey, Vector.getD, Vector.get]

end Sys2Proof.Machine
end

