-- ==== Sys2Proof/Laws/Decode.lean ====
section
/-! SUPPORT. Laws of the decoder: the bytes of a packet, and where the wdata of an access goes. -/

namespace Sys2Proof

/-- A word is the concatenation of its bytes. -/
theorem word_of_bytes (w : Word) :
    (w.extractLsb 31 24 ++ w.extractLsb 23 16 ++ w.extractLsb 15 8 ++ w.extractLsb 7 0 : BitVec 32) = w := by
  apply BitVec.eq_of_getLsbD_eq
  intro i hi
  simp only [BitVec.getLsbD_append, BitVec.getLsbD_extract]
  simp
  by_cases h1 : i < 8
  · simp [h1]; omega
  · simp only [h1]
    by_cases h2 : i - 8 < 8
    · simp [h2, show 8 + (i - 8) = i by omega]; omega
    · simp only [h2]
      by_cases h3 : i - 8 - 8 < 8
      · simp [h3, show 16 + (i - 8 - 8) = i by omega]; omega
      · simp [h3, show 24 + (i - 8 - 8 - 8) = i by omega]; omega

/-- A descriptor is the concatenation of its two bytes, and the upper five bits of the second are zero. -/
theorem descriptor_of_bytes (d : BitVec 11) :
    (BitVec.extractLsb 2 0 (BitVec.zeroExtend 8 (d.extractLsb 10 8)) ++ d.extractLsb 7 0 : BitVec 11) = d ∧
      (BitVec.zeroExtend 8 (d.extractLsb 10 8)).extractLsb 7 3 = 0 := by
  revert d
  decide +kernel

/-- The bytes of an access decode to the row of its descriptor. -/
theorem decode_access (d : BitVec 11) (v : Word) : decode (Packet.access d v).bytes = .ok (decodeAccess d v) := by
  simp only [Packet.bytes, wordBytes, decode]
  rw [if_neg (not_not.2 (descriptor_of_bytes d).2), word_of_bytes]
  congr 2
  exact (descriptor_of_bytes d).1

/-- The bytes of a command word decode to its row. -/
theorem decode_command (w : Word) : decode (Packet.command w).bytes = .ok (decodeCommandWord w) := by
  simp only [Packet.bytes, wordBytes, decode, word_of_bytes]

/-- The same operation with another wdata: only a write has any. -/
def Instr.setWdata (v : Word) : Instr → Instr
  | .wrId _ => .wrId v
  | .wrCtrl _ => .wrCtrl v
  | .wrStatus _ => .wrStatus v
  | .wrCmd _ => .wrCmd v
  | .wrKeylen _ => .wrKeylen v
  | .wrKey k _ => .wrKey k v
  | .wrDin k _ => .wrDin k v
  | .wrDout k _ => .wrDout k v
  | .rsvA (.write _) => .rsvA (.write v)
  | .rsvB (.write _) n => .rsvB (.write v) n
  | .rsvC (.write _) n => .rsvC (.write v) n
  | .rsvD (.write _) n => .rsvD (.write v) n
  | .busErrSize1 (.write _) o => .busErrSize1 (.write v) o
  | .busErrSize2 (.write _) o => .busErrSize2 (.write v) o
  | .busErrSizeRsv (.write _) o => .busErrSizeRsv (.write v) o
  | .busErrOdd (.write _) o => .busErrOdd (.write v) o
  | .busErrHalf (.write _) o => .busErrHalf (.write v) o
  | i => i

/-- The wdata of an access goes into the operation and nowhere else, so a claim about every access is one about the 2048
descriptors. -/
theorem decodeAccess_wdata (d : BitVec 11) (v : Word) : decodeAccess d v = (decodeAccess d 0#32).setWdata v := by
  simp only [decodeAccess, decodeWordAccess]
  generalize d.extractLsb 9 8 = sz
  by_cases hw : d.extractLsb 10 10 = 1
  · simp only [hw, if_true]
    split <;> (try simp only [apply_ite (Instr.setWdata v)]) <;> rfl
  · simp only [hw, if_false]
    split <;> (try simp only [apply_ite (Instr.setWdata v)]) <;> rfl

end Sys2Proof
end

