-- ==== Sys2Proof/Laws/State.lean ====
section
/-! SUPPORT. What each shared update leaves in each field of the state, one lemma per field per update, so that no later
proof unfolds a record update. -/

namespace Sys2Proof.Machine

/-! ## respondData -/

@[simp] theorem respondData_ie (v : Word) (s : State) : (respondData v s).ie = s.ie := rfl
@[simp] theorem respondData_busy (v : Word) (s : State) : (respondData v s).busy = s.busy := rfl
@[simp] theorem respondData_done (v : Word) (s : State) : (respondData v s).done = s.done := rfl
@[simp] theorem respondData_err (v : Word) (s : State) : (respondData v s).err = s.err := rfl
@[simp] theorem respondData_cmdovr (v : Word) (s : State) : (respondData v s).cmdovr = s.cmdovr := rfl
@[simp] theorem respondData_errcode (v : Word) (s : State) : (respondData v s).errcode = s.errcode := rfl
@[simp] theorem respondData_keylen (v : Word) (s : State) : (respondData v s).keylen = s.keylen := rfl
@[simp] theorem respondData_key (v : Word) (s : State) : (respondData v s).key = s.key := rfl
@[simp] theorem respondData_din (v : Word) (s : State) : (respondData v s).din = s.din := rfl
@[simp] theorem respondData_dout (v : Word) (s : State) : (respondData v s).dout = s.dout := rfl
@[simp] theorem respondData_int (v : Word) (s : State) : (respondData v s).int = s.int := rfl
@[simp] theorem respondData_resp (v : Word) (s : State) : (respondData v s).resp = some (.data v) := rfl
@[simp] theorem respondData_agenda (v : Word) (s : State) : (respondData v s).agenda = s.agenda := rfl

/-! ## respondWritten -/

@[simp] theorem respondWritten_ie (s : State) : (respondWritten s).ie = s.ie := rfl
@[simp] theorem respondWritten_busy (s : State) : (respondWritten s).busy = s.busy := rfl
@[simp] theorem respondWritten_done (s : State) : (respondWritten s).done = s.done := rfl
@[simp] theorem respondWritten_err (s : State) : (respondWritten s).err = s.err := rfl
@[simp] theorem respondWritten_cmdovr (s : State) : (respondWritten s).cmdovr = s.cmdovr := rfl
@[simp] theorem respondWritten_errcode (s : State) : (respondWritten s).errcode = s.errcode := rfl
@[simp] theorem respondWritten_keylen (s : State) : (respondWritten s).keylen = s.keylen := rfl
@[simp] theorem respondWritten_key (s : State) : (respondWritten s).key = s.key := rfl
@[simp] theorem respondWritten_din (s : State) : (respondWritten s).din = s.din := rfl
@[simp] theorem respondWritten_dout (s : State) : (respondWritten s).dout = s.dout := rfl
@[simp] theorem respondWritten_int (s : State) : (respondWritten s).int = s.int := rfl
@[simp] theorem respondWritten_resp (s : State) : (respondWritten s).resp = some .written := rfl
@[simp] theorem respondWritten_agenda (s : State) : (respondWritten s).agenda = s.agenda := rfl

/-! ## raiseBusError -/

@[simp] theorem raiseBusError_ie (s : State) : (raiseBusError s).ie = s.ie := rfl
@[simp] theorem raiseBusError_busy (s : State) : (raiseBusError s).busy = s.busy := rfl
@[simp] theorem raiseBusError_done (s : State) : (raiseBusError s).done = s.done := rfl
@[simp] theorem raiseBusError_err (s : State) : (raiseBusError s).err = s.err := rfl
@[simp] theorem raiseBusError_cmdovr (s : State) : (raiseBusError s).cmdovr = s.cmdovr := rfl
@[simp] theorem raiseBusError_errcode (s : State) : (raiseBusError s).errcode = s.errcode := rfl
@[simp] theorem raiseBusError_keylen (s : State) : (raiseBusError s).keylen = s.keylen := rfl
@[simp] theorem raiseBusError_key (s : State) : (raiseBusError s).key = s.key := rfl
@[simp] theorem raiseBusError_din (s : State) : (raiseBusError s).din = s.din := rfl
@[simp] theorem raiseBusError_dout (s : State) : (raiseBusError s).dout = s.dout := rfl
@[simp] theorem raiseBusError_int (s : State) : (raiseBusError s).int = s.int := rfl
@[simp] theorem raiseBusError_resp (s : State) : (raiseBusError s).resp = some .busError := rfl
@[simp] theorem raiseBusError_agenda (s : State) : (raiseBusError s).agenda = s.agenda := rfl

/-! ## clearOutcome -/

@[simp] theorem clearOutcome_ie (s : State) : (clearOutcome s).ie = s.ie := rfl
@[simp] theorem clearOutcome_busy (s : State) : (clearOutcome s).busy = s.busy := rfl
@[simp] theorem clearOutcome_done (s : State) : (clearOutcome s).done = false := rfl
@[simp] theorem clearOutcome_err (s : State) : (clearOutcome s).err = false := rfl
@[simp] theorem clearOutcome_cmdovr (s : State) : (clearOutcome s).cmdovr = s.cmdovr := rfl
@[simp] theorem clearOutcome_errcode (s : State) : (clearOutcome s).errcode = .none := rfl
@[simp] theorem clearOutcome_keylen (s : State) : (clearOutcome s).keylen = s.keylen := rfl
@[simp] theorem clearOutcome_key (s : State) : (clearOutcome s).key = s.key := rfl
@[simp] theorem clearOutcome_din (s : State) : (clearOutcome s).din = s.din := rfl
@[simp] theorem clearOutcome_dout (s : State) : (clearOutcome s).dout = s.dout := rfl
@[simp] theorem clearOutcome_int (s : State) : (clearOutcome s).int = s.int := rfl
@[simp] theorem clearOutcome_resp (s : State) : (clearOutcome s).resp = s.resp := rfl
@[simp] theorem clearOutcome_agenda (s : State) : (clearOutcome s).agenda = s.agenda := rfl

/-! ## setOverrun -/

@[simp] theorem setOverrun_ie (s : State) : (setOverrun s).ie = s.ie := rfl
@[simp] theorem setOverrun_busy (s : State) : (setOverrun s).busy = s.busy := rfl
@[simp] theorem setOverrun_done (s : State) : (setOverrun s).done = s.done := rfl
@[simp] theorem setOverrun_err (s : State) : (setOverrun s).err = s.err := rfl
@[simp] theorem setOverrun_cmdovr (s : State) : (setOverrun s).cmdovr = true := rfl
@[simp] theorem setOverrun_errcode (s : State) : (setOverrun s).errcode = s.errcode := rfl
@[simp] theorem setOverrun_keylen (s : State) : (setOverrun s).keylen = s.keylen := rfl
@[simp] theorem setOverrun_key (s : State) : (setOverrun s).key = s.key := rfl
@[simp] theorem setOverrun_din (s : State) : (setOverrun s).din = s.din := rfl
@[simp] theorem setOverrun_dout (s : State) : (setOverrun s).dout = s.dout := rfl
@[simp] theorem setOverrun_int (s : State) : (setOverrun s).int = s.int := rfl
@[simp] theorem setOverrun_resp (s : State) : (setOverrun s).resp = s.resp := rfl
@[simp] theorem setOverrun_agenda (s : State) : (setOverrun s).agenda = s.agenda := rfl

/-! ## clearDone -/

@[simp] theorem clearDone_ie (s : State) : (clearDone s).ie = s.ie := rfl
@[simp] theorem clearDone_busy (s : State) : (clearDone s).busy = s.busy := rfl
@[simp] theorem clearDone_done (s : State) : (clearDone s).done = false := rfl
@[simp] theorem clearDone_err (s : State) : (clearDone s).err = s.err := rfl
@[simp] theorem clearDone_cmdovr (s : State) : (clearDone s).cmdovr = s.cmdovr := rfl
@[simp] theorem clearDone_errcode (s : State) : (clearDone s).errcode = s.errcode := rfl
@[simp] theorem clearDone_keylen (s : State) : (clearDone s).keylen = s.keylen := rfl
@[simp] theorem clearDone_key (s : State) : (clearDone s).key = s.key := rfl
@[simp] theorem clearDone_din (s : State) : (clearDone s).din = s.din := rfl
@[simp] theorem clearDone_dout (s : State) : (clearDone s).dout = s.dout := rfl
@[simp] theorem clearDone_int (s : State) : (clearDone s).int = s.int := rfl
@[simp] theorem clearDone_resp (s : State) : (clearDone s).resp = s.resp := rfl
@[simp] theorem clearDone_agenda (s : State) : (clearDone s).agenda = s.agenda := rfl

/-! ## clearErr -/

@[simp] theorem clearErr_ie (s : State) : (clearErr s).ie = s.ie := rfl
@[simp] theorem clearErr_busy (s : State) : (clearErr s).busy = s.busy := rfl
@[simp] theorem clearErr_done (s : State) : (clearErr s).done = s.done := rfl
@[simp] theorem clearErr_err (s : State) : (clearErr s).err = false := rfl
@[simp] theorem clearErr_cmdovr (s : State) : (clearErr s).cmdovr = s.cmdovr := rfl
@[simp] theorem clearErr_errcode (s : State) : (clearErr s).errcode = .none := rfl
@[simp] theorem clearErr_keylen (s : State) : (clearErr s).keylen = s.keylen := rfl
@[simp] theorem clearErr_key (s : State) : (clearErr s).key = s.key := rfl
@[simp] theorem clearErr_din (s : State) : (clearErr s).din = s.din := rfl
@[simp] theorem clearErr_dout (s : State) : (clearErr s).dout = s.dout := rfl
@[simp] theorem clearErr_int (s : State) : (clearErr s).int = s.int := rfl
@[simp] theorem clearErr_resp (s : State) : (clearErr s).resp = s.resp := rfl
@[simp] theorem clearErr_agenda (s : State) : (clearErr s).agenda = s.agenda := rfl

/-! ## clearOverrun -/

@[simp] theorem clearOverrun_ie (s : State) : (clearOverrun s).ie = s.ie := rfl
@[simp] theorem clearOverrun_busy (s : State) : (clearOverrun s).busy = s.busy := rfl
@[simp] theorem clearOverrun_done (s : State) : (clearOverrun s).done = s.done := rfl
@[simp] theorem clearOverrun_err (s : State) : (clearOverrun s).err = s.err := rfl
@[simp] theorem clearOverrun_cmdovr (s : State) : (clearOverrun s).cmdovr = false := rfl
@[simp] theorem clearOverrun_errcode (s : State) : (clearOverrun s).errcode = s.errcode := rfl
@[simp] theorem clearOverrun_keylen (s : State) : (clearOverrun s).keylen = s.keylen := rfl
@[simp] theorem clearOverrun_key (s : State) : (clearOverrun s).key = s.key := rfl
@[simp] theorem clearOverrun_din (s : State) : (clearOverrun s).din = s.din := rfl
@[simp] theorem clearOverrun_dout (s : State) : (clearOverrun s).dout = s.dout := rfl
@[simp] theorem clearOverrun_int (s : State) : (clearOverrun s).int = s.int := rfl
@[simp] theorem clearOverrun_resp (s : State) : (clearOverrun s).resp = s.resp := rfl
@[simp] theorem clearOverrun_agenda (s : State) : (clearOverrun s).agenda = s.agenda := rfl

/-! ## writeCtrl -/

@[simp] theorem writeCtrl_ie (v : Word) (s : State) : (writeCtrl v s).ie = v.getLsbD 0 := rfl
@[simp] theorem writeCtrl_busy (v : Word) (s : State) : (writeCtrl v s).busy = s.busy := rfl
@[simp] theorem writeCtrl_done (v : Word) (s : State) : (writeCtrl v s).done = s.done := rfl
@[simp] theorem writeCtrl_err (v : Word) (s : State) : (writeCtrl v s).err = s.err := rfl
@[simp] theorem writeCtrl_cmdovr (v : Word) (s : State) : (writeCtrl v s).cmdovr = s.cmdovr := rfl
@[simp] theorem writeCtrl_errcode (v : Word) (s : State) : (writeCtrl v s).errcode = s.errcode := rfl
@[simp] theorem writeCtrl_keylen (v : Word) (s : State) : (writeCtrl v s).keylen = s.keylen := rfl
@[simp] theorem writeCtrl_key (v : Word) (s : State) : (writeCtrl v s).key = s.key := rfl
@[simp] theorem writeCtrl_din (v : Word) (s : State) : (writeCtrl v s).din = s.din := rfl
@[simp] theorem writeCtrl_dout (v : Word) (s : State) : (writeCtrl v s).dout = s.dout := rfl
@[simp] theorem writeCtrl_int (v : Word) (s : State) : (writeCtrl v s).int = s.int := rfl
@[simp] theorem writeCtrl_resp (v : Word) (s : State) : (writeCtrl v s).resp = s.resp := rfl
@[simp] theorem writeCtrl_agenda (v : Word) (s : State) : (writeCtrl v s).agenda = s.agenda := rfl

/-! ## writeKeylen -/

@[simp] theorem writeKeylen_ie (v : Word) (s : State) : (writeKeylen v s).ie = s.ie := rfl
@[simp] theorem writeKeylen_busy (v : Word) (s : State) : (writeKeylen v s).busy = s.busy := rfl
@[simp] theorem writeKeylen_done (v : Word) (s : State) : (writeKeylen v s).done = s.done := rfl
@[simp] theorem writeKeylen_err (v : Word) (s : State) : (writeKeylen v s).err = s.err := rfl
@[simp] theorem writeKeylen_cmdovr (v : Word) (s : State) : (writeKeylen v s).cmdovr = s.cmdovr := rfl
@[simp] theorem writeKeylen_errcode (v : Word) (s : State) : (writeKeylen v s).errcode = s.errcode := rfl
@[simp] theorem writeKeylen_keylen (v : Word) (s : State) : (writeKeylen v s).keylen = v.extractLsb 7 0 := rfl
@[simp] theorem writeKeylen_key (v : Word) (s : State) : (writeKeylen v s).key = s.key := rfl
@[simp] theorem writeKeylen_din (v : Word) (s : State) : (writeKeylen v s).din = s.din := rfl
@[simp] theorem writeKeylen_dout (v : Word) (s : State) : (writeKeylen v s).dout = s.dout := rfl
@[simp] theorem writeKeylen_int (v : Word) (s : State) : (writeKeylen v s).int = s.int := rfl
@[simp] theorem writeKeylen_resp (v : Word) (s : State) : (writeKeylen v s).resp = s.resp := rfl
@[simp] theorem writeKeylen_agenda (v : Word) (s : State) : (writeKeylen v s).agenda = s.agenda := rfl

/-! ## writeKey -/

@[simp] theorem writeKey_ie (k : Fin 8) (v : Word) (s : State) : (writeKey k v s).ie = s.ie := rfl
@[simp] theorem writeKey_busy (k : Fin 8) (v : Word) (s : State) : (writeKey k v s).busy = s.busy := rfl
@[simp] theorem writeKey_done (k : Fin 8) (v : Word) (s : State) : (writeKey k v s).done = s.done := rfl
@[simp] theorem writeKey_err (k : Fin 8) (v : Word) (s : State) : (writeKey k v s).err = s.err := rfl
@[simp] theorem writeKey_cmdovr (k : Fin 8) (v : Word) (s : State) : (writeKey k v s).cmdovr = s.cmdovr := rfl
@[simp] theorem writeKey_errcode (k : Fin 8) (v : Word) (s : State) : (writeKey k v s).errcode = s.errcode := rfl
@[simp] theorem writeKey_keylen (k : Fin 8) (v : Word) (s : State) : (writeKey k v s).keylen = s.keylen := rfl
@[simp] theorem writeKey_key (k : Fin 8) (v : Word) (s : State) : (writeKey k v s).key = s.key.set k v := rfl
@[simp] theorem writeKey_din (k : Fin 8) (v : Word) (s : State) : (writeKey k v s).din = s.din := rfl
@[simp] theorem writeKey_dout (k : Fin 8) (v : Word) (s : State) : (writeKey k v s).dout = s.dout := rfl
@[simp] theorem writeKey_int (k : Fin 8) (v : Word) (s : State) : (writeKey k v s).int = s.int := rfl
@[simp] theorem writeKey_resp (k : Fin 8) (v : Word) (s : State) : (writeKey k v s).resp = s.resp := rfl
@[simp] theorem writeKey_agenda (k : Fin 8) (v : Word) (s : State) : (writeKey k v s).agenda = s.agenda := rfl

/-! ## writeDin -/

@[simp] theorem writeDin_ie (k : Fin 4) (v : Word) (s : State) : (writeDin k v s).ie = s.ie := rfl
@[simp] theorem writeDin_busy (k : Fin 4) (v : Word) (s : State) : (writeDin k v s).busy = s.busy := rfl
@[simp] theorem writeDin_done (k : Fin 4) (v : Word) (s : State) : (writeDin k v s).done = s.done := rfl
@[simp] theorem writeDin_err (k : Fin 4) (v : Word) (s : State) : (writeDin k v s).err = s.err := rfl
@[simp] theorem writeDin_cmdovr (k : Fin 4) (v : Word) (s : State) : (writeDin k v s).cmdovr = s.cmdovr := rfl
@[simp] theorem writeDin_errcode (k : Fin 4) (v : Word) (s : State) : (writeDin k v s).errcode = s.errcode := rfl
@[simp] theorem writeDin_keylen (k : Fin 4) (v : Word) (s : State) : (writeDin k v s).keylen = s.keylen := rfl
@[simp] theorem writeDin_key (k : Fin 4) (v : Word) (s : State) : (writeDin k v s).key = s.key := rfl
@[simp] theorem writeDin_din (k : Fin 4) (v : Word) (s : State) : (writeDin k v s).din = s.din.set k v := rfl
@[simp] theorem writeDin_dout (k : Fin 4) (v : Word) (s : State) : (writeDin k v s).dout = s.dout := rfl
@[simp] theorem writeDin_int (k : Fin 4) (v : Word) (s : State) : (writeDin k v s).int = s.int := rfl
@[simp] theorem writeDin_resp (k : Fin 4) (v : Word) (s : State) : (writeDin k v s).resp = s.resp := rfl
@[simp] theorem writeDin_agenda (k : Fin 4) (v : Word) (s : State) : (writeDin k v s).agenda = s.agenda := rfl

/-! ## raiseCmdError -/

@[simp] theorem raiseCmdError_ie (c : ErrCode) (s : State) : (raiseCmdError c s).ie = s.ie := rfl
@[simp] theorem raiseCmdError_busy (c : ErrCode) (s : State) : (raiseCmdError c s).busy = s.busy := rfl
@[simp] theorem raiseCmdError_done (c : ErrCode) (s : State) : (raiseCmdError c s).done = s.done := rfl
@[simp] theorem raiseCmdError_err (c : ErrCode) (s : State) : (raiseCmdError c s).err = true := rfl
@[simp] theorem raiseCmdError_cmdovr (c : ErrCode) (s : State) : (raiseCmdError c s).cmdovr = s.cmdovr := rfl
@[simp] theorem raiseCmdError_errcode (c : ErrCode) (s : State) : (raiseCmdError c s).errcode = c := rfl
@[simp] theorem raiseCmdError_keylen (c : ErrCode) (s : State) : (raiseCmdError c s).keylen = s.keylen := rfl
@[simp] theorem raiseCmdError_key (c : ErrCode) (s : State) : (raiseCmdError c s).key = s.key := rfl
@[simp] theorem raiseCmdError_din (c : ErrCode) (s : State) : (raiseCmdError c s).din = s.din := rfl
@[simp] theorem raiseCmdError_dout (c : ErrCode) (s : State) : (raiseCmdError c s).dout = s.dout := rfl
@[simp] theorem raiseCmdError_int (c : ErrCode) (s : State) : (raiseCmdError c s).int = s.int := rfl
@[simp] theorem raiseCmdError_resp (c : ErrCode) (s : State) : (raiseCmdError c s).resp = s.resp := rfl
@[simp] theorem raiseCmdError_agenda (c : ErrCode) (s : State) : (raiseCmdError c s).agenda = s.agenda := rfl

/-! ## issue -/

@[simp] theorem issue_ie (op : Op) (s : State) : (issue op s).ie = s.ie := rfl
@[simp] theorem issue_busy (op : Op) (s : State) : (issue op s).busy = true := rfl
@[simp] theorem issue_done (op : Op) (s : State) : (issue op s).done = s.done := rfl
@[simp] theorem issue_err (op : Op) (s : State) : (issue op s).err = s.err := rfl
@[simp] theorem issue_cmdovr (op : Op) (s : State) : (issue op s).cmdovr = s.cmdovr := rfl
@[simp] theorem issue_errcode (op : Op) (s : State) : (issue op s).errcode = s.errcode := rfl
@[simp] theorem issue_keylen (op : Op) (s : State) : (issue op s).keylen = s.keylen := rfl
@[simp] theorem issue_key (op : Op) (s : State) : (issue op s).key = s.key := rfl
@[simp] theorem issue_din (op : Op) (s : State) : (issue op s).din = s.din := rfl
@[simp] theorem issue_dout (op : Op) (s : State) : (issue op s).dout = s.dout := rfl
@[simp] theorem issue_int (op : Op) (s : State) : (issue op s).int = { s.int with snap := takeSnapshot op s, phase := .ksInit } := rfl
@[simp] theorem issue_resp (op : Op) (s : State) : (issue op s).resp = s.resp := rfl
@[simp] theorem issue_agenda (op : Op) (s : State) : (issue op s).agenda = s.agenda := rfl

/-! ## finish -/

@[simp] theorem finish_ie (y : Block) (s : State) : (finish y s).ie = s.ie := rfl
@[simp] theorem finish_busy (y : Block) (s : State) : (finish y s).busy = false := rfl
@[simp] theorem finish_done (y : Block) (s : State) : (finish y s).done = true := rfl
@[simp] theorem finish_err (y : Block) (s : State) : (finish y s).err = s.err := rfl
@[simp] theorem finish_cmdovr (y : Block) (s : State) : (finish y s).cmdovr = s.cmdovr := rfl
@[simp] theorem finish_errcode (y : Block) (s : State) : (finish y s).errcode = s.errcode := rfl
@[simp] theorem finish_keylen (y : Block) (s : State) : (finish y s).keylen = s.keylen := rfl
@[simp] theorem finish_key (y : Block) (s : State) : (finish y s).key = s.key := rfl
@[simp] theorem finish_din (y : Block) (s : State) : (finish y s).din = s.din := rfl
@[simp] theorem finish_dout (y : Block) (s : State) : (finish y s).dout = y.words := rfl
@[simp] theorem finish_int (y : Block) (s : State) : (finish y s).int = { s.int with phase := .idle } := rfl
@[simp] theorem finish_resp (y : Block) (s : State) : (finish y s).resp = s.resp := rfl
@[simp] theorem finish_agenda (y : Block) (s : State) : (finish y s).agenda = s.agenda := rfl

end Sys2Proof.Machine
end

