-- ==== Sys2Proof/Laws/Ops.lean ====
section
/-! SUPPORT. What each shared operation can do, said once; the meanings and the step are taken apart through these. -/

namespace Sys2Proof.Machine

/-! ## Status writes -/

@[simp] theorem whenSet_true (f : State → State) (s : State) : whenSet true f s = f s := rfl
@[simp] theorem whenSet_false (f : State → State) (s : State) : whenSet false f s = s := rfl

/-- A W1C write, as one record: which bit clears which flag. -/
theorem writeStatus_eq (v : Word) (s : State) :
    writeStatus v s = { s with
      done := if v.getLsbD 1 then false else s.done
      err := if v.getLsbD 2 then false else s.err
      errcode := if v.getLsbD 2 then .none else s.errcode
      cmdovr := if v.getLsbD 3 then false else s.cmdovr } := by
  unfold writeStatus
  cases v.getLsbD 1 <;> cases v.getLsbD 2 <;> cases v.getLsbD 3 <;> rfl

/-! ## Commands -/

theorem command_busy (d : Cmd) {s : State} (h : s.busy = true) : command d s = setOverrun s := by
  simp [command, h]

theorem command_idle (d : Cmd) {s : State} (h : s.busy = false) :
    command d s = startCommand d (clearOutcome s) := by
  simp [command, h]

/-- The checks read nothing but KEYLEN. -/
theorem checkCmd_congr (d : Cmd) {s t : State} (h : s.keylen = t.keylen) : checkCmd d s = checkCmd d t := by
  unfold checkCmd keyBytes
  rw [h]

/-- A command is either issued, or raises the code of its first failing check. -/
theorem startCommand_cases (d : Cmd) (s : State) :
    (checkCmd d s = .none ∧ startCommand d s = issue (Cmd.op d) s) ∨
      (checkCmd d s ≠ .none ∧ startCommand d s = raiseCmdError (checkCmd d s) s) := by
  unfold startCommand
  split
  · exact .inl ⟨‹_›, rfl⟩
  · exact .inr ⟨‹_›, rfl⟩

theorem startCommand_accepted {d : Cmd} {s : State} (h : checkCmd d s = .none) :
    startCommand d s = issue (Cmd.op d) s := by
  simp only [startCommand, h]

theorem startCommand_failed {d : Cmd} {s : State} (h : checkCmd d s ≠ .none) :
    startCommand d s = raiseCmdError (checkCmd d s) s := by
  rcases startCommand_cases d s with ⟨h', -⟩ | ⟨-, e⟩
  · exact absurd h' h
  · exact e

@[simp] theorem checkCmd_illegal (s : State) : checkCmd .illegal s = .illegalCmd := rfl

theorem checkCmd_enc (b : Byte) (s : State) :
    checkCmd (.enc b) s = if b.toNat ≠ Config.blockBytes then .blockSize
      else if keyLenLegal Config.keyLenSet (keyBytes s) then .none else .keySize := rfl

theorem checkCmd_dec (b : Byte) (s : State) :
    checkCmd (.dec b) s = if b.toNat ≠ Config.blockBytes then .blockSize
      else if keyLenLegal Config.keyLenSet (keyBytes s) then .none else .keySize := rfl

/-- A key length is legal when it is in the set. -/
theorem keyLenLegal_iff (set : List Nat) (n : Nat) : keyLenLegal set n = true ↔ n ∈ set := by
  simp [keyLenLegal]

/-- A command that passes its checks has a legal block length and a legal key length. -/
theorem checkCmd_none {d : Cmd} {s : State} (h : checkCmd d s = .none) :
    d ≠ .illegal ∧ keyLenLegal Config.keyLenSet (keyBytes s) = true := by
  cases d <;> simp only [checkCmd] at h
  · split at h
    · cases h
    · split at h
      · exact ⟨nofun, ‹_›⟩
      · cases h
  · split at h
    · cases h
    · split at h
      · exact ⟨nofun, ‹_›⟩
      · cases h
  · cases h

/-- What a CMD write can do. -/
theorem command_cases (d : Cmd) (s : State) :
    (s.busy = true ∧ command d s = setOverrun s) ∨
    (s.busy = false ∧ checkCmd d s = .none ∧ command d s = issue (Cmd.op d) (clearOutcome s)) ∨
    (s.busy = false ∧ checkCmd d s ≠ .none ∧ command d s = raiseCmdError (checkCmd d s) (clearOutcome s)) := by
  have hc : checkCmd d (clearOutcome s) = checkCmd d s := checkCmd_congr d rfl
  cases hb : s.busy with
  | true => exact .inl ⟨rfl, command_busy d hb⟩
  | false =>
    rw [command_idle d hb]
    rcases startCommand_cases d (clearOutcome s) with ⟨h, e⟩ | ⟨h, e⟩
    · exact .inr (.inl ⟨rfl, hc ▸ h, e⟩)
    · exact .inr (.inr ⟨rfl, hc ▸ h, hc ▸ e⟩)

/-- A CMD write, whichever row names it, is `command` of what its word decodes to. -/
theorem exec_wrCmd_eq (w : Word) (s : State) :
    exec (.wrCmd w) s = .next (respondWritten (command (decodeCmd w) s)) := rfl

/-- CMD_WHILE_BUSY is the CMD write of its word. -/
theorem exec_cmdWhileBusy_eq (w : Word) (s : State) :
    exec (.cmdWhileBusy w) s = .next (respondWritten (command (decodeCmd w) s)) := by
  cases h : s.busy <;> simp [exec, execCmdWhileBusy, writeCmd, command, h]

/-! ## Completion -/

theorem completeStep_busy {s : State} (h : s.busy = true) : completeStep s = finish (pendingResult s.int) s := by
  simp [completeStep, h]

theorem completeStep_idle {s : State} (h : s.busy = false) : completeStep s = s := by
  simp [completeStep, h]

/-! ## What an operation can do -/

/-- Every operation goes on to a next state of one of these shapes: a CMD write, a completion, an answered read or an
ignored write, a write of STATUS, CTRL, KEYLEN, KEY or DIN, or the error response. -/
theorem exec_cases (i : Instr) (s : State) :
    (∃ d, exec i s = .next (respondWritten (command d s)) ∧ i.accessRow = some .wrCmd) ∨
    (i = .complete ∧ exec i s = .next (completeStep s)) ∨
    (∃ v, exec i s = .next (respondData v s) ∧ i ≠ .complete) ∨
    (exec i s = .next (respondWritten s) ∧ i ≠ .complete) ∨
    (exec i s = .next (raiseBusError s) ∧ i ≠ .complete) ∨
    (∃ v, i = .wrCtrl v ∧ exec i s = .next (respondWritten (writeCtrl v s))) ∨
    (∃ v, i = .wrStatus v ∧ exec i s = .next (respondWritten (writeStatus v s))) ∨
    (∃ v, i = .wrKeylen v ∧ exec i s = .next (respondWritten (writeKeylen v s))) ∨
    (∃ k v, i = .wrKey k v ∧ exec i s = .next (respondWritten (writeKey k v s))) ∨
    (∃ k v, i = .wrDin k v ∧ exec i s = .next (respondWritten (writeDin k v s))) := by
  cases i with
  | enc b => exact .inl ⟨.enc b, rfl, rfl⟩
  | dec b => exact .inl ⟨.dec b, rfl, rfl⟩
  | illegal w => exact .inl ⟨.illegal, rfl, rfl⟩
  | cmdWhileBusy w => exact .inl ⟨decodeCmd w, exec_cmdWhileBusy_eq w s, rfl⟩
  | wrCmd w => exact .inl ⟨decodeCmd w, rfl, rfl⟩
  | complete => exact .inr (.inl ⟨rfl, rfl⟩)
  | rdId | rdCtrl | rdStatus | rdCmd | rdKeylen => exact .inr (.inr (.inl ⟨_, rfl, nofun⟩))
  | rdKey k | rdDin k | rdDout k => exact .inr (.inr (.inl ⟨_, rfl, nofun⟩))
  | wrId v => exact .inr (.inr (.inr (.inl ⟨rfl, nofun⟩)))
  | wrDout k v => exact .inr (.inr (.inr (.inl ⟨rfl, nofun⟩)))
  | rsvA dir =>
    cases dir
    · exact .inr (.inr (.inl ⟨_, rfl, nofun⟩))
    · exact .inr (.inr (.inr (.inl ⟨rfl, nofun⟩)))
  | rsvB dir n | rsvC dir n | rsvD dir n =>
    cases dir
    · exact .inr (.inr (.inl ⟨_, rfl, nofun⟩))
    · exact .inr (.inr (.inr (.inl ⟨rfl, nofun⟩)))
  | busErrSize1 dir off | busErrSize2 dir off | busErrSizeRsv dir off | busErrOdd dir off | busErrHalf dir off =>
    exact .inr (.inr (.inr (.inr (.inl ⟨rfl, nofun⟩))))
  | wrCtrl v => exact .inr (.inr (.inr (.inr (.inr (.inl ⟨v, rfl, rfl⟩)))))
  | wrStatus v => exact .inr (.inr (.inr (.inr (.inr (.inr (.inl ⟨v, rfl, rfl⟩))))))
  | wrKeylen v => exact .inr (.inr (.inr (.inr (.inr (.inr (.inr (.inl ⟨v, rfl, rfl⟩)))))))
  | wrKey k v => exact .inr (.inr (.inr (.inr (.inr (.inr (.inr (.inr (.inl ⟨k, v, rfl, rfl⟩))))))))
  | wrDin k v => exact .inr (.inr (.inr (.inr (.inr (.inr (.inr (.inr (.inr ⟨k, v, rfl, rfl⟩))))))))

/-! ## The step -/

theorem step_quiet {s : State} (h : s.agenda = []) : step s = .next (completeStep s) := by
  simp [step, h, quietStep, exec, execComplete]

theorem step_event {s : State} {e : Event} {rest : List Event} (h : s.agenda = e :: rest) :
    step s = eventStep e { s with agenda := rest } := by
  simp [step, h]

/-- The read that a poll makes is the read of its register. -/
theorem readInstr_exec (r : Reg) (s : State) : exec (readInstr r) s = .next (respondData (readReg r s) s) := by
  have h : readInstr r = match r with
      | .id => .rdId
      | .ctrl => .rdCtrl
      | .status => .rdStatus
      | .cmd => .rdCmd
      | .keylen => .rdKeylen
      | .key k => .rdKey k
      | .din k => .rdDin k
      | .dout k => .rdDout k := by
    cases r with
    | key k | din k | dout k => revert k; decide
    | id | ctrl | status | cmd | keylen => rfl
  rw [h]
  cases r <;> rfl

/-- A poll reads its register, and stays unless the read ends it. -/
theorem pollStep_of_next {r : Reg} {mask val : Word} {turns : Nat} {s t : State}
    (h : exec (readInstr r) s = .next t) :
    pollStep r mask val turns s = .next (if pollDone mask val t.resp then t
      else { t with agenda := pollAgain r mask val turns t.agenda }) := by
  simp [pollStep, h, pollNext]

end Sys2Proof.Machine
end

