-- ==== Sys2Proof/Laws/PerInstr.lean ====
section
/-! SUPPORT. Statements made per instruction, one lemma per constructor of `Instr`. -/

namespace Sys2Proof.Laws.EncodesInItsRow

/-- A packet that carries an operation is of the operation's own row: its descriptor matches the row's mask and match of
30_encoding.md R86, and a command word goes to the operations whose carrier is WR.CMD (opcode_table.json). -/
def Carries (i : Instr) : Packet → Prop
  | .access d _ => ∃ r, i.accessRow = some r ∧ r.matches d = true
  | .command _ => i.accessRow = some .wrCmd

/-- The encoding of a well-formed operation lies in its row of the table; COMPLETE, which is not encoded, has none. -/
def Statement (i : Instr) : Prop := WellFormed i = true → ∀ p, encode i = some p → Carries i p

theorem of_access {i : Instr} {r : AccessRow} {dir : Dir} {sz : BitVec 2} {off : Byte} (hr : i.accessRow = some r)
    (he : encode i = some (accessPacket dir sz off))
    (hm : r.matches (descriptor dir.isWrite sz off) = true) : Statement i := by
  intro _ p hp
  rw [he] at hp
  cases hp
  exact ⟨r, hr, hm⟩

theorem enc (b : Byte) : Statement (.enc b) := by
  intro _ p hp
  cases hp
  rfl

theorem dec (b : Byte) : Statement (.dec b) := by
  intro _ p hp
  cases hp
  rfl

theorem illegal (w : Word) : Statement (.illegal w) := by
  intro _ p hp
  cases hp
  rfl

theorem cmdWhileBusy (w : Word) : Statement (.cmdWhileBusy w) := by
  intro _ p hp
  cases hp
  rfl

theorem complete : Statement (.complete) := by
  intro _ p hp
  cases hp

theorem rdId : Statement (.rdId) := of_access rfl rfl rfl

theorem wrId (v : Word) : Statement (.wrId v) :=
  of_access (dir := .write v) rfl rfl (by simp only [Dir.isWrite]; decide)

theorem rdCtrl : Statement (.rdCtrl) := of_access rfl rfl rfl

theorem wrCtrl (v : Word) : Statement (.wrCtrl v) :=
  of_access (dir := .write v) rfl rfl (by simp only [Dir.isWrite]; decide)

theorem rdStatus : Statement (.rdStatus) := of_access rfl rfl rfl

theorem wrStatus (v : Word) : Statement (.wrStatus v) :=
  of_access (dir := .write v) rfl rfl (by simp only [Dir.isWrite]; decide)

theorem rdCmd : Statement (.rdCmd) := of_access rfl rfl rfl

theorem wrCmd (v : Word) : Statement (.wrCmd v) :=
  of_access (dir := .write v) rfl rfl (by simp only [Dir.isWrite]; decide)

theorem rdKeylen : Statement (.rdKeylen) := of_access rfl rfl rfl

theorem wrKeylen (v : Word) : Statement (.wrKeylen v) :=
  of_access (dir := .write v) rfl rfl (by simp only [Dir.isWrite]; decide)

theorem rdKey (k : Fin 8) : Statement (.rdKey k) :=
  of_access rfl rfl (by revert k; decide)

theorem wrKey (k : Fin 8) (v : Word) : Statement (.wrKey k v) :=
  of_access (r := .wrKey) (dir := .write v) rfl rfl (by revert k; simp only [Dir.isWrite]; decide)

theorem rdDin (k : Fin 4) : Statement (.rdDin k) :=
  of_access rfl rfl (by revert k; decide)

theorem wrDin (k : Fin 4) (v : Word) : Statement (.wrDin k v) :=
  of_access (r := .wrDin) (dir := .write v) rfl rfl (by revert k; simp only [Dir.isWrite]; decide)

theorem rdDout (k : Fin 4) : Statement (.rdDout k) :=
  of_access rfl rfl (by revert k; decide)

theorem wrDout (k : Fin 4) (v : Word) : Statement (.wrDout k v) :=
  of_access (r := .wrDout) (dir := .write v) rfl rfl (by revert k; simp only [Dir.isWrite]; decide)

theorem rsvA (dir : Dir) : Statement (.rsvA dir) :=
  of_access rfl rfl (by cases dir <;> simp only [Dir.isWrite] <;> decide)

theorem rsvB (dir : Dir) (n : Fin 2) : Statement (.rsvB dir n) :=
  of_access rfl rfl (by revert n; cases dir <;> simp only [Dir.isWrite] <;> decide)

theorem rsvC (dir : Dir) (n : Fin 8) : Statement (.rsvC dir n) :=
  of_access rfl rfl (by revert n; cases dir <;> simp only [Dir.isWrite] <;> decide)

theorem rsvD (dir : Dir) (n : Fin 32) : Statement (.rsvD dir n) :=
  of_access rfl rfl (by revert n; cases dir <;> simp only [Dir.isWrite] <;> decide)

theorem busErrSize1 (dir : Dir) (off : Byte) : Statement (.busErrSize1 dir off) :=
  of_access rfl rfl (by revert off; cases dir <;> simp only [Dir.isWrite] <;> decide +kernel)

theorem busErrSize2 (dir : Dir) (off : Byte) : Statement (.busErrSize2 dir off) :=
  of_access rfl rfl (by revert off; cases dir <;> simp only [Dir.isWrite] <;> decide +kernel)

theorem busErrSizeRsv (dir : Dir) (off : Byte) : Statement (.busErrSizeRsv dir off) :=
  of_access rfl rfl (by revert off; cases dir <;> simp only [Dir.isWrite] <;> decide +kernel)

theorem busErrOdd (dir : Dir) (off : Byte) : Statement (.busErrOdd dir off) := by
  intro hw
  refine of_access rfl rfl ?_ hw
  revert off
  cases dir <;> simp only [WellFormed, Dir.isWrite] <;> decide +kernel

theorem busErrHalf (dir : Dir) (off : Byte) : Statement (.busErrHalf dir off) := by
  intro hw
  refine of_access rfl rfl ?_ hw
  revert off
  cases dir <;> simp only [WellFormed, Dir.isWrite] <;> decide +kernel

end Sys2Proof.Laws.EncodesInItsRow
end

