-- ==== Sys2Proof/Tests/Slice0.lean ====
section
/-! SUPPORT. Tests. Every expected value is from spec/: 30_encoding.md R84 and R86 for the words, 95_test_vectors.md for the
results; the section is named at each group. Then one witness for each hypothesis of a statement. -/

open Sys2Proof Sys2Proof.Machine

namespace Sys2Proof.Tests

/-! ## Helpers -/

/-- An idle core with this key length. -/
def idle (len : Byte) : State := { State.reset with keylen := len }

/-- A core that runs an operation with these key words and this block, in the phase that issue leaves. -/
def running (op : Op) (c : BitVec 4) (L : Vector Word 8) (blk : Vector Word 4) : State :=
  { State.reset with
    busy := true
    int := { Internal.reset with phase := .ksInit, snap := { op := op, c := c, L := L, blk := blk } } }

/-- Eight words, all zero. -/
def zeros8 : Vector Word 8 := Vector.replicate 8 0#32

/-- Four words, all zero. -/
def zeros4 : Vector Word 4 := Vector.replicate 4 0#32

/-- A running encryption of the zero block under the zero 16-byte key. -/
def busy : State := running .enc 4#4 zeros8 zeros4

/-- A core whose next clock is its last. -/
def atPost : State := { busy with int := { busy.int with phase := .post, w := ⟨1#32, 2#32, 3#32, 4#32⟩ } }

/-- An idle core that recorded an error, with CMDOVR. -/
def failed : State := { idle 16#8 with err := true, errcode := .keySize, cmdovr := true }

/-- The STATUS word after a step that goes on. -/
def statusAfter : Host.Outcome State Fault Refusal → Option Word
  | .next t => some (statusWord t)
  | _ => none

/-- The response after a step that goes on. -/
def respAfter : Host.Outcome State Fault Refusal → Option Response
  | .next t => t.resp
  | _ => none

/-- The result words after a step that goes on. -/
def doutAfter : Host.Outcome State Fault Refusal → Option (Vector Word 4)
  | .next t => some t.dout
  | _ => none

/-- The state after a step that goes on. -/
def after : Host.Outcome State Fault Refusal → Option State
  | .next t => some t
  | _ => none

/-! ## WellFormed (R84, R86) -/

theorem test_wellFormed_illegal : WellFormed (.illegal 0x00001001#32) = false ∧
    WellFormed (.illegal 0x00000801#32) = false ∧ WellFormed (.illegal 0x00011001#32) = true := by decide

theorem test_wellFormed_odd : WellFormed (.busErrOdd .read 0x0E#8) = false ∧
    WellFormed (.busErrOdd .read 0x0D#8) = true := by decide

theorem test_wellFormed_half : WellFormed (.busErrHalf .read 0x0C#8) = false ∧
    WellFormed (.busErrHalf .read 0x0D#8) = false ∧ WellFormed (.busErrHalf .read 0x0E#8) = true := by decide

/-! ## Decoding: words written from the patterns of R80 and R86 -/

/-- ENC, DEC and ILLEGAL: RSV1 (16 bits), BLEN (8), RSV0 (4), OP (4). -/
theorem test_decode_commands :
    decodeTableWord 32 0b0000000000000000_00010000_0000_0001 = some (.enc 16#8) ∧
    decodeTableWord 32 0b0000000000000000_11111111_0000_0010 = some (.dec 255#8) ∧
    decodeTableWord 32 0b0000000000000000_00010000_0000_0011 = some (.illegal 0x00001003#32) ∧
    decodeTableWord 32 0b0000000000000000_00010000_0001_0001 = some (.illegal 0x00001011#32) ∧
    decodeTableWord 32 0b1000000000000000_00010000_0000_0001 = some (.illegal 0x80001001#32) ∧
    decodeTableWord 32 0 = some (.illegal 0#32) := by decide

/-- CMD_WHILE_BUSY takes a CMD write by state; COMPLETE is not encoded. -/
theorem test_decode_by_state : selectCommandRow true 0x00001002#32 = .cmdWhileBusy 0x00001002#32 ∧
    selectCommandRow false 0x00001002#32 = .dec 16#8 ∧ encode .complete = none := by decide

/-- Reads: WR = 0, SZ = 10, then the offset. -/
theorem test_decode_reads :
    decodeTableWord 16 0b0_10_00000000 = some .rdId ∧ decodeTableWord 16 0b0_10_00000100 = some .rdCtrl ∧
    decodeTableWord 16 0b0_10_00001000 = some .rdStatus ∧ decodeTableWord 16 0b0_10_00001100 = some .rdCmd ∧
    decodeTableWord 16 0b0_10_00010000 = some .rdKeylen ∧ decodeTableWord 16 0b0_10_00111000 = some (.rdKey 6) ∧
    decodeTableWord 16 0b0_10_01001000 = some (.rdDin 2) ∧ decodeTableWord 16 0b0_10_01011100 = some (.rdDout 3) := by
  decide

/-- Writes: WR = 1; the wdata stands above the descriptor's 16 bits. -/
theorem test_decode_writes :
    decodeTableWord 16 0b1_10_00000000 = some (.wrId 0#32) ∧
    decodeTableWord 48 0x00000001_0604 = some (.wrCtrl 1#32) ∧
    decodeTableWord 48 0x0000000E_0608 = some (.wrStatus 0xE#32) ∧
    decodeTableWord 48 0x00001001_060C = some (.wrCmd 0x1001#32) ∧
    decodeTableWord 48 0x00000010_0610 = some (.wrKeylen 16#32) ∧
    decodeTableWord 48 0x67452301_0634 = some (.wrKey 5 0x67452301#32) ∧
    decodeTableWord 48 0xbdac9b8a_0648 = some (.wrDin 2 0xbdac9b8a#32) ∧
    decodeTableWord 16 0b1_10_01010100 = some (.wrDout 1 0#32) := by decide

/-- Reserved offsets at the ends of their ranges (R34). -/
theorem test_decode_reserved :
    decodeTableWord 16 0b0_10_00010100 = some (.rsvA .read) ∧
    decodeTableWord 16 0b1_10_00011100 = some (.rsvB (.write 0#32) 1) ∧
    decodeTableWord 16 0b0_10_01100000 = some (.rsvC .read 0) ∧
    decodeTableWord 16 0b0_10_01111100 = some (.rsvC .read 7) ∧
    decodeTableWord 16 0b0_10_10000000 = some (.rsvD .read 0) ∧
    decodeTableWord 16 0b1_10_11111100 = some (.rsvD (.write 0#32) 31) := by decide

/-- The illegal accesses of 95_test_vectors.md section 2.7. -/
theorem test_decode_bus_errors :
    decodeTableWord 16 0b1_00_00001100 = some (.busErrSize1 (.write 0#32) 0x0C#8) ∧
    decodeTableWord 16 0b0_01_00001010 = some (.busErrSize2 .read 0x0A#8) ∧
    decodeTableWord 16 0b0_11_00000000 = some (.busErrSizeRsv .read 0x00#8) ∧
    decodeTableWord 16 0b1_10_00001101 = some (.busErrOdd (.write 0#32) 0x0D#8) ∧
    decodeTableWord 16 0b0_10_00001110 = some (.busErrHalf .read 0x0E#8) := by decide

/-- Bytes that are no packet are rejected by name. -/
theorem test_decode_rejects :
    decode [0#8] = .error (.length 1) ∧ decode [0x00#8, 0x08#8, 0#8, 0#8, 0#8, 0#8] = .error .descriptorBits ∧
    decodeTableWord 16 0x0A00 = none := by decide

/-- The number of descriptors of some rows (95_test_vectors.md section 2.8). -/
theorem test_partition :
    ((List.range 2048).filter fun d => AccessRow.matches .rsvD (BitVec.ofNat 11 d)).length = 64 ∧
    ((List.range 2048).filter fun d => AccessRow.matches .busErrHalf (BitVec.ofNat 11 d)).length = 128 := by
  decide +kernel

/-! ## Word operations (section 2.2) -/

theorem test_rotations :
    rotl 0x80000001#32 1 = 0x00000003#32 ∧ rotl 0x80000001#32 32 = 0x80000001#32 ∧
    rotl 0x12345678#32 0xffffffff = 0x091a2b3c#32 ∧ rotr 0x12345678#32 0xffffffff = 0x2468acf0#32 ∧
    rotr 0x80000001#32 33 = 0xc0000000#32 ∧ rotr 0x12345678#32 4 = 0x81234567#32 := by decide

theorem test_quad :
    quad 2#32 = 0x140#32 ∧ quad 0x80000000#32 = 0x10#32 ∧ quad 0xffffffff#32 = 0x20#32 ∧
    quad 0x12345678#32 = 0xc3c0df09#32 := by decide

/-! ## Key schedule (section 2.3) -/

theorem test_initS :
    (initS Config.rc6P Config.rc6Q).get 1 = 0x5618cb1c#32 ∧
    (initS Config.rc6P Config.rc6Q).get 43 = 0x4b32c376#32 := by decide +kernel

/-- The first three iterations for the zero 16-byte key. -/
theorem test_mixing :
    (mixLoop 4 1 (mixStart Config.rc6P Config.rc6Q zeros8)).kb = 0xb7e15163#32 ∧
    (mixLoop 4 2 (mixStart Config.rc6P Config.rc6Q zeros8)).ka = 0x68253ce6#32 ∧
    (mixLoop 4 3 (mixStart Config.rc6P Config.rc6Q zeros8)).kb = 0xdacd6990#32 := by decide +kernel

/-- c = 5: j stops in the middle of its last pass. The other three key registers hold other words. -/
theorem test_schedule_five_words :
    let S := keySchedule Config.rc6P Config.rc6Q
      #v[0x03020100#32, 0x07060504#32, 0x0b0a0908#32, 0x0f0e0d0c#32, 0x13121110#32, 7#32, 8#32, 9#32] 5
    S.get 0 = 0xec7e752e#32 ∧ S.get 43 = 0xe732dadb#32 := by decide +kernel

/-! ## Data format (section 2.1) -/

theorem test_split : split #v[0x02#8, 0x13#8, 0x24#8, 0x35#8, 0x46#8, 0x57#8, 0x68#8, 0x79#8, 0x8a#8, 0x9b#8, 0xac#8,
    0xbd#8, 0xce#8, 0xdf#8, 0xe0#8, 0xf1#8] = ⟨0x35241302#32, 0x79685746#32, 0xbdac9b8a#32, 0xf1e0dfce#32⟩ := by decide

theorem test_pack : pack ⟨0x36a5c38f#32, 0x78f7b156#32, 0x4edf29c1#32, 0x1ea44898#32⟩ =
    #v[0x8f#8, 0xc3#8, 0xa5#8, 0x36#8, 0x56#8, 0xb1#8, 0xf7#8, 0x78#8, 0xc1#8, 0x29#8, 0xdf#8, 0x4e#8, 0x98#8, 0x48#8,
      0xa4#8, 0x1e#8] := by decide

/-! ## Commands (section 2.7) -/

/-- ENC, DEC and the errors, by STATUS. -/
theorem test_enc : statusAfter (exec (.enc 16#8) (idle 16#8)) = some 0x00000001#32 ∧
    statusAfter (exec (.enc 8#8) (idle 15#8)) = some 0x00000204#32 := by decide

theorem test_dec : statusAfter (exec (.dec 16#8) (idle 0#8)) = some 0x00000304#32 ∧
    statusAfter (exec (.dec 255#8) (idle 16#8)) = some 0x00000204#32 := by decide

theorem test_illegal : statusAfter (exec (.illegal 0x00000803#32) (idle 15#8)) = some 0x00000104#32 ∧
    statusAfter (exec (.illegal 0#32) { idle 16#8 with done := true }) = some 0x00000104#32 := by decide

theorem test_wrCmd : statusAfter (exec (.wrCmd 0x00001001#32) (idle 36#8)) = some 0x00000304#32 ∧
    statusAfter (exec (.wrCmd 0x00001001#32) { idle 20#8 with err := true, errcode := .keySize }) =
      some 0x00000001#32 := by decide

theorem test_cmdWhileBusy : statusAfter (exec (.cmdWhileBusy 0x00001002#32) busy) = some 0x00000009#32 ∧
    respAfter (exec (.cmdWhileBusy 0#32) busy) = some .written := by decide

/-- Completion of vector 1 (section 2.4), with a CMD write while busy before it. -/
theorem test_complete_vector1 : statusAfter (exec .complete { busy with cmdovr := true }) = some 0x0000000A#32 ∧
    doutAfter (exec .complete busy) = some #v[0x36a5c38f#32, 0x78f7b156#32, 0x4edf29c1#32, 0x1ea44898#32] := by
  decide +kernel

/-- DEC of vector 6, a 32-byte key. -/
theorem test_complete_vector6 :
    doutAfter (exec .complete (running .dec 8#4
      #v[0x67452301#32, 0xefcdab89#32, 0x34231201#32, 0x78675645#32, 0xbcab9a89#32, 0xf0efdecd#32, 0x76543210#32,
        0xfedcba98#32] #v[0x161824c8#32, 0x89e4d7f0#32, 0xa116ad20#32, 0x485d4e67#32])) =
      some #v[0x35241302#32, 0x79685746#32, 0xbdac9b8a#32, 0xf1e0dfce#32] := by decide +kernel

/-- ENC with a 4-byte zero key (section 2.5), as bytes. -/
theorem test_encrypt_four_byte_key :
    encryptBytes Config.rc6P Config.rc6Q (List.replicate 4 0#8) (Vector.replicate 16 0#8) =
      #v[0xbc#8, 0x0a#8, 0xa9#8, 0x0d#8, 0xcc#8, 0x98#8, 0xef#8, 0x69#8, 0x96#8, 0x76#8, 0xe3#8, 0xe6#8, 0x46#8, 0xa8#8,
        0xce#8, 0x0e#8] := by decide +kernel

/-! ## Register accesses (section 2.7) -/

theorem test_id : respAfter (exec .rdId busy) = some (.data 0x52433601#32) ∧
    respAfter (exec (.wrId 0#32) busy) = some .written := by decide

theorem test_ctrl : (after (exec (.wrCtrl 0xffffffff#32) (idle 0#8))).map ctrlWord = some 1#32 ∧
    (after (exec (.wrCtrl 1#32) { idle 0#8 with done := true })).map irq = some true := by decide

theorem test_wrStatus_error : statusAfter (exec (.wrStatus 4#32) { failed with cmdovr := false }) = some 0#32 ∧
    statusAfter (exec (.wrStatus 2#32) { failed with cmdovr := false }) = some 0x304#32 ∧
    statusAfter (exec (.wrStatus 0xf00#32) { failed with cmdovr := false, errcode := .illegalCmd }) = some 0x104#32 := by
  decide

theorem test_wrStatus_busy : statusAfter (exec (.wrStatus 1#32) { busy with cmdovr := true }) = some 9#32 ∧
    statusAfter (exec (.wrStatus 0xE#32) { busy with cmdovr := true }) = some 1#32 ∧
    statusAfter (exec (.wrStatus 8#32) { idle 0#8 with done := true, cmdovr := true }) = some 2#32 := by decide

theorem test_keylen : (after (exec (.wrKeylen 0x00000115#32) (idle 0#8))).map (readReg .keylen) = some 0x15#32 := by
  decide

/-- The key is stored and never read back. -/
theorem test_key : (after (exec (.wrKey 0 0x67452301#32) (idle 0#8))).map (fun t => (t.key.get 0, readReg (.key 0) t)) =
    some (0x67452301#32, 0#32) := by decide

theorem test_din : (after (exec (.wrDin 2 0xbdac9b8a#32) (idle 0#8))).map (readReg (.din 2)) = some 0xbdac9b8a#32 := by
  decide

theorem test_dout : doutAfter (exec (.wrDout 0 0x12345678#32) (idle 0#8)) = some zeros4 ∧
    respAfter (exec (.rdDout 3) { busy with dout := #v[1#32, 2#32, 3#32, 4#32] }) = some (.data 4#32) := by decide

theorem test_reserved : respAfter (exec (.rsvD .read 31) failed) = some (.data 0#32) ∧
    respAfter (exec (.rsvA (.write 5#32)) failed) = some .written := by decide

/-- `wrx 0x0C, 1, 0x01` issues no command. -/
theorem test_bus_error : after (exec (decodeAccess 0x40C#11 0x00001001#32) (idle 16#8)) =
    some { idle 16#8 with resp := some .busError } := by decide

/-! ## The step -/

/-- An access of the agenda, `wr CMD, 0x00001001`, is taken first. -/
theorem test_step_access :
    (after (step { idle 16#8 with agenda := [.access 0x60C#11 0x00001001#32, .reset] })).map
      (fun t => (t.busy, t.agenda)) = some (true, [.reset]) := by decide

/-- Placing a command word on the machine after reset: KEYLEN is 0, so it fails with KEY_SIZE (R30). -/
theorem test_fetch : statusAfter (step (State.reset.withFetchWord 32 0x00001001)) = some 0x00000304#32 ∧
    respAfter (step (State.reset.withFetchWord 16 0x200)) = some (.data 0x52433601#32) := by decide

/-- Reset while busy (R242). -/
theorem test_reset_while_busy : after (step { busy with agenda := [.reset] }) = some State.reset := by decide

/-- A poll of BUSY stays while busy, and ends when idle (R90). -/
theorem test_poll :
    (after (step { busy with agenda := [.poll .status 1#32 0#32 0] })).map State.agenda =
      some [.sequencer, .poll .status 1#32 0#32 0] ∧
    (after (step { idle 0#8 with agenda := [.poll .status 1#32 0#32 0] })).map State.agenda = some [] := by decide

/-- A clock in KS_INIT loads the constants; one in POST completes (R253). -/
theorem test_clocks : (cycleStep busy).int.S.get 1 = 0x5618cb1c#32 ∧ (cycleStep atPost).done = true ∧
    (cycleStep atPost).busy = false := by decide +kernel

/-- The counters reach the ends of their ranges (R42, R43) and their phases end there (R253). -/
theorem test_counters : (cycles 132 busy).int.k = 131 ∧ (cycles 132 busy).int.phase = .ksMix ∧
    (cycles 133 busy).int.phase = .pre ∧ (cycles 153 busy).int.r = 19 ∧ (cycles 153 busy).int.phase = .round ∧
    (cycles 154 busy).int.phase = .post := by decide +kernel

/-- The 155th clock ends vector 1 (section 2.9). -/
theorem test_latency : (cycles 154 busy).busy = true ∧ (cycles 155 busy).busy = false ∧
    (cycles 155 busy).dout.get 0 = 0x36a5c38f#32 := by decide +kernel

/-! ## Witnesses: a state and operands that meet the hypotheses of each statement -/

theorem idle_inv (len : Byte) : (idle len).Inv := by
  constructor <;> simp [idle, State.reset, Internal.reset]

theorem busy_inv : busy.Inv := by
  constructor <;> simp [busy, running, State.reset, Internal.reset, Internal.ready]

theorem atPost_inv : atPost.Inv := by
  constructor <;> simp [atPost, busy, running, State.reset, Internal.reset, Internal.ready]

theorem inv_agenda {s : State} (h : s.Inv) (a : List Event) : State.Inv { s with agenda := a } :=
  ⟨h.notBoth, h.errcodeIff, h.busyClean, h.phaseIff, h.countLegal, h.seqReady⟩

theorem witness_DecodeOfEncodeIsIdentity :
    (WellFormed (.illegal 0xffffffff#32) = true ∧ (∀ w, Instr.illegal 0xffffffff#32 ≠ .cmdWhileBusy w) ∧
      Instr.illegal 0xffffffff#32 ≠ .complete) ∧
    WellFormed (.busErrHalf (.write 1#32) 0xFE#8) = true ∧ WellFormed (.rsvD .read 31) = true :=
  ⟨⟨by decide, nofun, nofun⟩, by decide, by decide⟩

theorem witness_EachDescriptorMatchesItsOneRow :
    decodeAccess 0x23C#11 0#32 = .rdKey 7 ∧ decodeAccess 0x63C#11 9#32 = .wrKey 7 9#32 ∧
    decodeAccess 0x24C#11 0#32 = .rdDin 3 ∧ decodeAccess 0x640#11 9#32 = .wrDin 0 9#32 ∧
    decodeAccess 0x250#11 0#32 = .rdDout 0 ∧ decodeAccess 0x65C#11 9#32 = .wrDout 3 9#32 := by decide

theorem witness_StepRunsTheDecodedOperation :
    decode (Packet.access 0x600#11 5#32).bytes = .ok (.wrId 5#32) ∧
    (∃ s : State, s.agenda = [.access 0x600#11 5#32]) ∧
    decode (Packet.command 0x00001001#32).bytes = .ok (.enc 16#8) ∧
    (∃ s : State, s.agenda = [.access 0x60C#11 0x00001001#32] ∧ s.busy = false) :=
  ⟨by decide, ⟨{ busy with agenda := [.access 0x600#11 5#32] }, rfl⟩, by decide,
    ⟨{ idle 16#8 with agenda := [.access 0x60C#11 0x00001001#32] }, rfl, rfl⟩⟩

theorem witness_PlacedInstructionIsRun :
    decodeTableWord 16 0x65C = some (.wrDout 3 0#32) ∧
    decodeTableWord 32 0x00001002 = some (.dec 16#8) ∧
    decodeTableWord 48 0xffffffff_0640 = some (.wrDin 0 0xffffffff#32) := by decide

theorem witness_QuietCoreCompletesOrRests :
    busy.agenda = [] ∧ busy.busy = true ∧ (idle 0#8).agenda = [] ∧ (idle 0#8).busy = false := by decide

theorem witness_ResetLeavesTheStatedValues :
    (∃ t, step { busy with agenda := [.reset] } = .next t) ∧ ∃ t, t = State.reset :=
  ⟨⟨_, rfl⟩, _, rfl⟩

theorem witness_ResetAbandonsTheCommand :
    ∃ s : State, s.busy = true ∧ s.agenda = [.reset, .sequencer] :=
  ⟨{ busy with agenda := [.reset, .sequencer] }, rfl, rfl⟩

theorem witness_AccessUnderResetIsIgnored :
    ∃ s t : State, s.agenda = [.accessInReset 0x60C#11 0x00001001#32] ∧ t.agenda = [.accessInReset 0x250#11 0#32] :=
  ⟨{ busy with agenda := [.accessInReset 0x60C#11 0x00001001#32] },
    { busy with agenda := [.accessInReset 0x250#11 0#32] }, rfl, rfl⟩

theorem witness_StepKeepsTheInvariant :
    (busy.Inv ∧ ∃ t, step busy = .next t) ∧
    (idle 16#8).Inv ∧ (∃ t, step { idle 16#8 with agenda := [.access 0x60C#11 0x00001001#32] } = .next t) ∧
    atPost.Inv ∧ ∃ t, step { atPost with agenda := [.cycle] } = .next t :=
  ⟨⟨busy_inv, _, rfl⟩, idle_inv _, ⟨_, rfl⟩, atPost_inv, _, rfl⟩

theorem witness_IllegalAccessesChangeNothing :
    (∃ i : Instr, i = .busErrSize1 .read 0xFF#8 ∨ i = .busErrSize2 .read 0xFF#8 ∨ i = .busErrSizeRsv .read 0xFF#8 ∨
      i = .busErrOdd .read 0xFF#8 ∨ i = .busErrHalf .read 0xFF#8) ∧
    BitVec.extractLsb 9 8 0x0FF#11 ≠ 2 ∧ BitVec.extractLsb 9 8 0x700#11 ≠ 2 ∧ BitVec.extractLsb 1 0 0x6FE#11 ≠ 0 :=
  ⟨⟨_, .inl rfl⟩, by decide⟩

theorem witness_OnlyAlignedWordsReachARegister :
    BitVec.extractLsb 9 8 0x40C#11 ≠ 2 ∧ BitVec.extractLsb 1 0 0x20E#11 ≠ 0 ∧ BitVec.extractLsb 1 0 0x60D#11 ≠ 0 ∧
    (BitVec.extractLsb 9 8 0x2FC#11 = 2 ∧ BitVec.extractLsb 1 0 0x2FC#11 = 0) := by decide

theorem witness_AlignedReadAnswersTheOffset :
    BitVec.extractLsb 1 0 0x00#8 = 0 ∧ BitVec.extractLsb 1 0 0xFC#8 = 0 := by decide

theorem witness_WritesChangeOnlyTheirOffset :
    (∃ t, exec (.wrDin 3 7#32) busy = .next t) ∧ (∃ t, exec (.wrKeylen 7#32) busy = .next t) ∧
    (∃ t, exec (.wrCtrl 7#32) busy = .next t) ∧ (∃ t, exec (.wrKey 7 7#32) busy = .next t) ∧
    (∃ t, exec (.wrId 7#32) busy = .next t) ∧ (∃ t, exec (.wrDout 3 7#32) busy = .next t) ∧
    (∃ t, exec (.rsvA (.write 7#32)) busy = .next t) ∧ (∃ t, exec (.rsvB (.write 7#32) 1) busy = .next t) ∧
    (∃ t, exec (.rsvC (.write 7#32) 7) busy = .next t) ∧ ∃ t, exec (.rsvD (.write 7#32) 31) busy = .next t :=
  ⟨⟨_, rfl⟩, ⟨_, rfl⟩, ⟨_, rfl⟩, ⟨_, rfl⟩, ⟨_, rfl⟩, ⟨_, rfl⟩, ⟨_, rfl⟩, ⟨_, rfl⟩, ⟨_, rfl⟩, _, rfl⟩

/-- Each register is changed by some operation. -/
theorem witness_EachRegisterHasItsWriters :
    (after (exec (.wrKey 7 7#32) (idle 0#8))).map (fun t => t.key == (idle 0#8).key) = some false ∧
    (after (exec (.wrDin 3 7#32) (idle 0#8))).map (fun t => t.din == (idle 0#8).din) = some false ∧
    (after (exec (.wrKeylen 7#32) (idle 0#8))).map (fun t => t.keylen == (idle 0#8).keylen) = some false ∧
    (after (exec (.wrCtrl 7#32) (idle 0#8))).map (fun t => t.ie == (idle 0#8).ie) = some false ∧
    (after (exec .complete atPost)).map (fun t => (t.dout == atPost.dout, t.int == atPost.int, t.busy)) =
      some (false, false, false) ∧
    (after (exec (.enc 16#8) (idle 16#8))).map (fun t => (t.int == (idle 16#8).int, t.busy)) = some (false, true) ∧
    (after (exec (.wrStatus 4#32) failed)).map (fun t => t.err == failed.err) = some false := by decide

theorem witness_AcceptedCommandTakesTheSnapshot :
    (idle 4#8).busy = false ∧ (idle 4#8).keylen.toNat ∈ [4, 8, 12, 16, 20, 24, 28, 32] ∧
    (idle 32#8).keylen.toNat ∈ [4, 8, 12, 16, 20, 24, 28, 32] := by decide

theorem witness_CommandErrorsAreRecorded :
    (idle 16#8).busy = false ∧ WellFormed (.illegal 0#32) = true ∧ WellFormed (.illegal 0x00011001#32) = true ∧ (0#8 ≠ 16#8) ∧ (15#8 ≠ 16#8) ∧ (17#8 ≠ 16#8) ∧ (255#8 ≠ 16#8) ∧
    (idle 0#8).keylen.toNat ∉ [4, 8, 12, 16, 20, 24, 28, 32] ∧
    (idle 15#8).keylen.toNat ∉ [4, 8, 12, 16, 20, 24, 28, 32] ∧
    (idle 36#8).keylen.toNat ∉ [4, 8, 12, 16, 20, 24, 28, 32] := by decide

/-- One word for each branch, with the key length that the last two need. -/
theorem witness_CommandWriteToAnIdleCore :
    (idle 15#8).busy = false ∧ 0x00010000 / 65536 ≠ 0 ∧ 0x00001011 / 16 % 16 ≠ 0 ∧
    (0x00001000 % 16 ≠ 1 ∧ 0x00001000 % 16 ≠ 2) ∧ 0x00001101 / 256 % 256 ≠ 16 ∧ 0x00001001 / 256 % 256 = 16 ∧
    (idle 15#8).keylen.toNat ∉ [4, 8, 12, 16, 20, 24, 28, 32] ∧
    (idle 16#8).keylen.toNat ∈ [4, 8, 12, 16, 20, 24, 28, 32] := by decide

theorem witness_CommandWriteWhileBusyIsDropped : busy.busy = true := rfl

theorem witness_StatusWordsOfTheErrors :
    (idle 15#8).busy = false ∧ (idle 15#8).cmdovr = false ∧
    (after (exec (.wrCmd 0x00001003#32) (idle 15#8))).map State.err = some true ∧
    (after (exec (.wrCmd 0x00001101#32) (idle 15#8))).map State.err = some true ∧
    (after (exec (.wrCmd 0x00001001#32) (idle 15#8))).map State.err = some true := by decide

theorem witness_NextCommandForgetsTheLastOutcome : failed.busy = false := rfl

theorem witness_OnlyIdleCommandWritesRaise :
    (idle 15#8).err = false ∧ (after (exec (.wrCmd 0x00001001#32) (idle 15#8))).map State.err = some true := by decide

theorem witness_CompletionWritesTheResult : busy.busy = true ∧ busy.int.phase = .ksInit := by decide

theorem witness_CompletionAtAnyPoint :
    busy.Inv ∧ busy.busy = true ∧ busy.int.phase = .ksInit ∧ 0 < 155 ∧ 154 < 155 :=
  ⟨busy_inv, rfl, rfl, by decide, by decide⟩

theorem witness_IdleSequencerChangesNothing : failed.busy = false := rfl

/-- A completion, a reset and an access under reset, each of which changes DOUT. -/
theorem witness_DoutChangesOnlyAtCompletion :
    (atPost.Inv ∧ (after (step atPost)).map (fun t => t.dout == atPost.dout) = some false) ∧
    (State.Inv { idle 0#8 with dout := #v[1#32, 2#32, 3#32, 4#32], agenda := [.reset] } ∧
      (after (step { idle 0#8 with dout := #v[1#32, 2#32, 3#32, 4#32], agenda := [.reset] })).map State.dout =
        some zeros4) ∧
    (after (step { idle 0#8 with
      dout := #v[1#32, 2#32, 3#32, 4#32], agenda := [.accessInReset 0x200#11 0#32] })).map State.dout = some zeros4 := by
  refine ⟨⟨atPost_inv, by decide⟩, ⟨?_, by decide⟩, by decide⟩
  exact ⟨(idle_inv 0#8).notBoth, (idle_inv 0#8).errcodeIff, (idle_inv 0#8).busyClean, (idle_inv 0#8).phaseIff,
    (idle_inv 0#8).countLegal, (idle_inv 0#8).seqReady⟩

theorem witness_NoAccessDisturbsARunningCommand :
    busy.busy = true ∧ (.wrDin 0 0xffffffff#32 : Instr) ≠ .complete ∧ ∃ t, exec (.wrDin 0 0xffffffff#32) busy = .next t :=
  ⟨rfl, nofun, _, rfl⟩

theorem witness_AccessInTheCycleOfCompletion :
    ∃ s t : State, s.busy = true ∧ s.agenda = [.access 0x608#11 0xE#32, .sequencer] ∧
      t.busy = true ∧ t.agenda = [.access 0x60C#11 0x00001001#32, .sequencer] :=
  ⟨{ busy with agenda := [.access 0x608#11 0xE#32, .sequencer] },
    { busy with agenda := [.access 0x60C#11 0x00001001#32, .sequencer] }, rfl, rfl, rfl, rfl⟩

theorem witness_KeysAndHiddenStateNeverAnswered :
    (∃ t, step { idle 0#8 with agenda := [.access 0x220#11 0#32] } = .next t) ∧
    ∃ t, step { idle 0#8 with
      key := Vector.replicate 8 1#32, int := atPost.int, agenda := [.access 0x220#11 0#32] } = .next t :=
  ⟨⟨_, rfl⟩, _, rfl⟩

/-- Two running cores whose hidden words differ, in key words past the fourth and in the datapath. -/
theorem witness_HiddenWordsNeverShow :
    busy.Inv ∧
    busy.Agree { busy with int := { busy.int with
      snap := { busy.int.snap with L := zeros8.set 4 9#32 }, S := Vector.replicate 44 7#32, ka := 5#32 } } ∧
    (∀ rest, busy.agenda ≠ .cycle :: rest) ∧ (∃ t, step busy = .next t) ∧
    ∃ t, step { busy with int := { busy.int with
      snap := { busy.int.snap with L := zeros8.set 4 9#32 }, S := Vector.replicate 44 7#32, ka := 5#32 } } = .next t := by
  refine ⟨busy_inv, ⟨rfl, rfl, .inr rfl, fun _ => ⟨rfl, rfl, rfl, ?_⟩⟩, nofun, ⟨_, rfl⟩, _, rfl⟩
  decide

theorem witness_RotationsMoveBitsModThirtyTwo : 0 < 32 ∧ 31 < 32 := by decide

theorem witness_MixingIterationWritesBack : (1 ≤ 1 ∧ 1 ≤ 8) ∧ 1 ≤ 8 ∧ 8 ≤ 8 := by decide

theorem witness_MixingIndicesAdvance : (1 ≤ 1 ∧ 1 ≤ 8) ∧ 1 ≤ 8 ∧ 8 ≤ 8 := by decide

theorem witness_ScheduleReadsOnlyItsKeyWords :
    (1 ≤ 1 ∧ 1 ≤ 8) ∧ ∀ j : Fin 8, j.val < 1 → (zeros8.set 1 9#32).get j = zeros8.get j := by decide

theorem witness_EncThenDecRestoresTheBlock :
    (idle 32#8).busy = false ∧ (idle 32#8).keylen.toNat ∈ [4, 8, 12, 16, 20, 24, 28, 32] := by decide

theorem witness_PackAndSplitAreInverse :
    (List.replicate 32 1#8).length ≤ 32 ∧ 31 < (List.replicate 32 1#8).length ∧ 0 < (List.replicate 1 1#8).length := by
  decide

theorem witness_CoreMeetsTheByteContract :
    let key : List Byte := List.replicate 32 0#8
    let blk : Vector Byte 16 := Vector.replicate 16 0#8
    (idle 32#8).busy = false ∧ key.length ∈ [4, 8, 12, 16, 20, 24, 28, 32] ∧ (idle 32#8).keylen.toNat = key.length ∧
    (∀ j : Fin 8, j.val < key.length / 4 → (idle 32#8).key.get j = le32 key j.val) ∧
    ∀ k : Fin 4, (idle 32#8).din.get k = le32 blk.toList k.val := by decide

theorem witness_ClockRefinesCompletion : (busy.Inv ∧ busy.busy = true) ∧ atPost.Inv ∧ atPost.busy = true :=
  ⟨⟨busy_inv, rfl⟩, atPost_inv, rfl⟩

theorem witness_NominalLatencyIsOneFiftyFive :
    busy.Inv ∧ busy.busy = true ∧ busy.int.phase = .ksInit ∧ 0 < 155 ∧ 154 < 155 :=
  ⟨busy_inv, rfl, rfl, by decide, by decide⟩

theorem witness_WaitTerminates :
    (∃ s : State, s.Inv ∧ s.busy = true ∧ s.agenda = Pseudo.wait.expand.map (Stmt.event 3) ++ []) ∧
    ∃ s : State, s.Inv ∧ s.busy = false ∧ s.agenda = Pseudo.wait.expand.map (Stmt.event 0) ++ [] :=
  ⟨⟨{ busy with agenda := [.poll .status 1#32 0#32 3] }, inv_agenda busy_inv _, rfl, rfl⟩,
    { idle 0#8 with agenda := [.poll .status 1#32 0#32 0] }, inv_agenda (idle_inv _) _, rfl, rfl⟩

theorem witness_PseudoInstructionsExpand : ([] : List Word).length ≤ 8 ∧ zeros8.toList.length ≤ 8 := by decide

end Sys2Proof.Tests
end

section
/-! Rotations bit by bit (00_scope.md R10). -/

namespace Sys2Proof.Machine

/-- Whether the bit wraps past place 31 is the library's own case split on the rotated word. -/
theorem getLsbD_rotl (x : Word) (n : Nat) {i : Nat} (hi : i < 32) :
    (rotl x n).getLsbD ((i + n) % 32) = x.getLsbD i := by
  rw [rotl_eq_rotateLeft, BitVec.getLsbD_rotateLeft]
  by_cases hwrap : (i + n) % 32 < n % 32
  · have source : 32 - n % 32 + (i + n) % 32 = i := by omega
    simp [hwrap, source]
  · have source : (i + n) % 32 - n % 32 = i := by omega
    simp [hwrap, source, Nat.mod_lt]

theorem getLsbD_rotr (x : Word) (n : Nat) {i : Nat} (hi : i < 32) :
    (rotr x n).getLsbD i = x.getLsbD ((i + n) % 32) := by
  rw [rotr_eq_rotateRight, BitVec.getLsbD_rotateRight]
  by_cases hstay : i < 32 - n % 32
  · have source : n % 32 + i = (i + n) % 32 := by omega
    simp [hstay, source]
  · have source : i - (32 - n % 32) = (i + n) % 32 := by omega
    simp [hstay, hi, source]

@[simp] theorem rotr_rotl (x : Word) (n : Nat) : rotr (rotl x n) n = x :=
  BitVec.eq_of_getLsbD_eq fun i hi =>
    calc (rotr (rotl x n) n).getLsbD i
      _ = (rotl x n).getLsbD ((i + n) % 32) := getLsbD_rotr _ n hi
      _ = x.getLsbD i := getLsbD_rotl x n hi

/-- Settles O41: the bit laws of the two rotations, and the inverse, which follows from them bit by bit. -/
theorem rotationsMoveBitsModThirtyTwo : Obligations.RotationsMoveBitsModThirtyTwo :=
  fun x n _ hi => ⟨getLsbD_rotl x n hi, getLsbD_rotr x n hi, rotr_rotl x n⟩

end Sys2Proof.Machine
end

section
/-! What the compound operations leave unchanged and what a command, a clock and a step can do, said once; the statements
about the state are derived from these. -/

namespace Sys2Proof.Machine

/-! ## What a CMD write, a completion and a W1C write leave unchanged -/

/-- A CMD write changes only BUSY, DONE, ERR, CMDOVR, ERRCODE and the internal state. -/
theorem command_frame (d : Cmd) (s : State) :
    command d s = { s with
      busy := (command d s).busy
      done := (command d s).done
      err := (command d s).err
      cmdovr := (command d s).cmdovr
      errcode := (command d s).errcode
      int := (command d s).int } := by
  rcases command_cases d s with ⟨-, e⟩ | ⟨-, -, e⟩ | ⟨-, -, e⟩ <;> rw [e] <;> rfl

@[simp] theorem command_ie (d : Cmd) (s : State) : (command d s).ie = s.ie := by rw [command_frame]
@[simp] theorem command_keylen (d : Cmd) (s : State) : (command d s).keylen = s.keylen := by rw [command_frame]
@[simp] theorem command_key (d : Cmd) (s : State) : (command d s).key = s.key := by rw [command_frame]
@[simp] theorem command_din (d : Cmd) (s : State) : (command d s).din = s.din := by rw [command_frame]
@[simp] theorem command_dout (d : Cmd) (s : State) : (command d s).dout = s.dout := by rw [command_frame]
@[simp] theorem command_resp (d : Cmd) (s : State) : (command d s).resp = s.resp := by rw [command_frame]
@[simp] theorem command_agenda (d : Cmd) (s : State) : (command d s).agenda = s.agenda := by rw [command_frame]

/-- A completion, enabled or not, changes only DOUT, BUSY, DONE and the internal state. -/
theorem completeStep_frame (s : State) :
    completeStep s = { s with
      dout := (completeStep s).dout
      busy := (completeStep s).busy
      done := (completeStep s).done
      int := (completeStep s).int } := by
  cases h : s.busy with
  | true => rw [completeStep_busy h]; rfl
  | false => rw [completeStep_idle h]

@[simp] theorem completeStep_ie (s : State) : (completeStep s).ie = s.ie := by rw [completeStep_frame]
@[simp] theorem completeStep_keylen (s : State) : (completeStep s).keylen = s.keylen := by rw [completeStep_frame]
@[simp] theorem completeStep_key (s : State) : (completeStep s).key = s.key := by rw [completeStep_frame]
@[simp] theorem completeStep_din (s : State) : (completeStep s).din = s.din := by rw [completeStep_frame]
@[simp] theorem completeStep_resp (s : State) : (completeStep s).resp = s.resp := by rw [completeStep_frame]
@[simp] theorem completeStep_agenda (s : State) : (completeStep s).agenda = s.agenda := by rw [completeStep_frame]

@[simp] theorem writeStatus_ie (v : Word) (s : State) : (writeStatus v s).ie = s.ie := by rw [writeStatus_eq]
@[simp] theorem writeStatus_busy (v : Word) (s : State) : (writeStatus v s).busy = s.busy := by rw [writeStatus_eq]
@[simp] theorem writeStatus_keylen (v : Word) (s : State) : (writeStatus v s).keylen = s.keylen := by rw [writeStatus_eq]
@[simp] theorem writeStatus_key (v : Word) (s : State) : (writeStatus v s).key = s.key := by rw [writeStatus_eq]
@[simp] theorem writeStatus_din (v : Word) (s : State) : (writeStatus v s).din = s.din := by rw [writeStatus_eq]
@[simp] theorem writeStatus_dout (v : Word) (s : State) : (writeStatus v s).dout = s.dout := by rw [writeStatus_eq]
@[simp] theorem writeStatus_int (v : Word) (s : State) : (writeStatus v s).int = s.int := by rw [writeStatus_eq]
@[simp] theorem writeStatus_agenda (v : Word) (s : State) : (writeStatus v s).agenda = s.agenda := by
  rw [writeStatus_eq]

/-! ## Commands -/

theorem command_accepted {d : Cmd} {s : State} (hidle : s.busy = false) (hcheck : checkCmd d s = .none) :
    command d s = issue (Cmd.op d) (clearOutcome s) := by
  have hc : checkCmd d (clearOutcome s) = checkCmd d s := checkCmd_congr d rfl
  rw [command_idle d hidle, startCommand_accepted (hc.trans hcheck)]

theorem command_failed {d : Cmd} {s : State} (hidle : s.busy = false) (hcheck : checkCmd d s ≠ .none) :
    command d s = raiseCmdError (checkCmd d s) (clearOutcome s) := by
  have hc : checkCmd d (clearOutcome s) = checkCmd d s := checkCmd_congr d rfl
  rw [command_idle d hidle, startCommand_failed (hc ▸ hcheck), hc]

/-- The rows that name a CMD write are the command of the word they name, in every state (log 4). -/
theorem exec_commandRow {i : Instr} (h : i.accessRow = some .wrCmd) :
    ∃ d, ∀ s, exec i s = .next (respondWritten (command d s)) := by
  cases i with
  | enc b => exact ⟨.enc b, fun _ => rfl⟩
  | dec b => exact ⟨.dec b, fun _ => rfl⟩
  | illegal w => exact ⟨.illegal, fun _ => rfl⟩
  | cmdWhileBusy w => exact ⟨decodeCmd w, exec_cmdWhileBusy_eq w⟩
  | wrCmd w => exact ⟨decodeCmd w, fun _ => rfl⟩
  | _ => cases h

/-- The row of a command word has the effect of the CMD write of it (log 4). -/
theorem exec_decodeCommandWord (w : Word) (s : State) : exec (decodeCommandWord w) s = exec (.wrCmd w) s := by
  rw [exec_wrCmd_eq, decodeCommandWord]
  cases decodeCmd w <;> rfl

/-! ## Clocks -/

theorem cycleStep_idle {s : State} (h : s.int.phase = .idle) : cycleStep s = s := by simp only [cycleStep, h]

theorem cycleStep_ksInit {s : State} (h : s.int.phase = .ksInit) : cycleStep s = { s with int := cycleKsInit s.int } := by
  simp only [cycleStep, h]

theorem cycleStep_ksMix {s : State} (h : s.int.phase = .ksMix) : cycleStep s = { s with int := cycleKsMix s.int } := by
  simp only [cycleStep, h]

theorem cycleStep_pre {s : State} (h : s.int.phase = .pre) : cycleStep s = { s with int := cyclePre s.int } := by
  simp only [cycleStep, h]

theorem cycleStep_round {s : State} (h : s.int.phase = .round) : cycleStep s = { s with int := cycleRound s.int } := by
  simp only [cycleStep, h]

theorem cycleStep_post {s : State} (h : s.int.phase = .post) :
    cycleStep s = finish (whitenOut s.int.snap.op s.int.S s.int.w)
      { s with int := { s.int with w := whitenOut s.int.snap.op s.int.S s.int.w } } := by
  simp only [cycleStep, h]

/-- A clock changes internal words only, but for one of POST, which completes. -/
theorem cycleStep_cases (s : State) :
    (∃ n, cycleStep s = { s with int := n }) ∨
      (s.int.phase = .post ∧ ∃ y n, cycleStep s = finish y { s with int := n }) := by
  cases h : s.int.phase with
  | idle => exact .inl ⟨_, cycleStep_idle h⟩
  | ksInit => exact .inl ⟨_, cycleStep_ksInit h⟩
  | ksMix => exact .inl ⟨_, cycleStep_ksMix h⟩
  | pre => exact .inl ⟨_, cycleStep_pre h⟩
  | round => exact .inl ⟨_, cycleStep_round h⟩
  | post => exact .inr ⟨rfl, _, _, cycleStep_post h⟩

@[simp] theorem cycleStep_resp (s : State) : (cycleStep s).resp = s.resp := by
  rcases cycleStep_cases s with ⟨n, e⟩ | ⟨-, y, n, e⟩ <;> simp [e]

theorem cycleKsMix_phase_ne_idle (n : Internal) : (cycleKsMix n).phase ≠ .idle := by
  rcases cycleKsMix_cases n with ⟨-, -, e⟩ | ⟨-, -, e⟩ <;> simp [e]

theorem cycleRound_phase_ne_idle (n : Internal) : (cycleRound n).phase ≠ .idle := by
  rcases cycleRound_cases n with ⟨-, -, e⟩ | ⟨-, -, e⟩ <;> simp [e]

theorem nextJ_lt {c : Nat} (h1 : 1 ≤ c) (h8 : c ≤ 8) (j : Fin 8) : (nextJ c j).val < c :=
  (nextJ_val h1 h8 j).trans_lt (Nat.mod_lt _ h1)

/-! ## Registers -/

theorem vector_get_set {n : Nat} (v : Vector Word n) (i j : Fin n) (x : Word) :
    (v.set i x).get j = if j = i then x else v.get j := by
  rw [Vector.get_eq_getElem, Vector.getElem_set, Vector.get_eq_getElem]
  simp only [Fin.ext_iff, eq_comm]

/-- No register of the window shows a key register, an internal word, the last response or the agenda (10_state.md R31,
section 4). -/
theorem readReg_of_hidden (r : Reg) (s : State) (key : Vector Word 8) (int : Internal) (resp : Option Response)
    (agenda : List Event) :
    readReg r { s with key := key, int := int, resp := resp, agenda := agenda } = readReg r s := by
  cases r <;> rfl

/-! ## The step -/

theorem step_cons (s : State) (e : Event) : step { s with agenda := e :: s.agenda } = eventStep e s := rfl

/-- A poll answers its register, changes no other register, and stays on the agenda unless the answer ends it. -/
theorem pollStep_eq (r : Reg) (mask val : Word) (turns : Nat) (s : State) :
    pollStep r mask val turns s = .next { s with
      resp := some (.data (readReg r s))
      agenda := if readReg r s &&& mask = val then s.agenda else pollAgain r mask val turns s.agenda } := by
  rw [pollStep_of_next (readInstr_exec r s)]
  by_cases h : readReg r s &&& mask = val
  · simp [pollDone, h, respondData]
  · simp [pollDone, h, respondData]

/-- What a step can do: an operation, a read of a poll, a clock, a reset, or an access under reset. -/
theorem step_cases {s t : State} (h : step s = .next t) :
    (∃ i a, exec i { s with agenda := a } = .next t) ∨
    (∃ r a, t = { s with resp := r, agenda := a }) ∨
    (∃ rest, s.agenda = .cycle :: rest ∧ t = cycleStep { s with agenda := rest }) ∨
    (∃ rest, s.agenda = .reset :: rest ∧ t = resetStep { s with agenda := rest }) ∨
    (∃ d v rest, s.agenda = .accessInReset d v :: rest ∧ t = resetAccessStep d { s with agenda := rest }) := by
  cases ha : s.agenda with
  | nil =>
    rw [step_quiet ha] at h
    exact .inl ⟨.complete, s.agenda, h⟩
  | cons e rest =>
    rw [step_event ha] at h
    cases e with
    | access d v => exact .inl ⟨_, _, h⟩
    | poll r mask val turns =>
      rw [eventStep, pollStep_eq] at h
      cases h
      exact .inr (.inl ⟨_, _, rfl⟩)
    | sequencer => exact .inl ⟨.complete, _, h⟩
    | cycle =>
      cases h
      exact .inr (.inr (.inl ⟨rest, rfl, rfl⟩))
    | reset =>
      cases h
      exact .inr (.inr (.inr (.inl ⟨rest, rfl, rfl⟩)))
    | accessInReset d v =>
      cases h
      exact .inr (.inr (.inr (.inr ⟨d, v, rest, rfl, rfl⟩)))

end Sys2Proof.Machine
end

section
/-! Reset and the machine invariant: the invariant holds after reset (10_state.md R45), and every operation, clock and
reset keeps it. -/

namespace Sys2Proof.Machine

/-- The invariant speaks of BUSY, DONE, ERR, ERRCODE and the internal state only. -/
theorem State.Inv.congr {s t : State} (h : s.Inv) (hbusy : t.busy = s.busy) (hdone : t.done = s.done)
    (herr : t.err = s.err) (hcode : t.errcode = s.errcode) (hint : t.int = s.int) : t.Inv := by
  constructor
  · rw [hdone, herr]; exact h.notBoth
  · rw [hcode, herr]; exact h.errcodeIff
  · rw [hbusy, hdone, herr]; exact h.busyClean
  · rw [hint, hbusy]; exact h.phaseIff
  · rw [hbusy, hint]; exact h.countLegal
  · rw [hbusy, hint]; exact h.seqReady

/-- Settles O14: every clause is about a constant. -/
theorem resetMeetsTheInvariant : Obligations.ResetMeetsTheInvariant := by
  constructor <;> simp [State.reset, Internal.reset]

/-- Settles O11: both states are the reset state but for the agenda, which no clause speaks of. -/
theorem resetLeavesTheStatedValues : Obligations.ResetLeavesTheStatedValues := by
  intro s t rest h
  obtain ⟨a, rfl⟩ : ∃ a, t = { State.reset with agenda := a } := by
    rcases h with ⟨ha, hstep⟩ | rfl
    · rw [step_event ha] at hstep
      cases hstep
      exact ⟨rest, rfl⟩
    · exact ⟨_, rfl⟩
  have hkey : ∀ k, State.reset.key.get k = 0#32 := by decide
  have hblock : ∀ k, State.reset.din.get k = 0#32 := by decide
  exact ⟨rfl, rfl, rfl, rfl, rfl, rfl, rfl, rfl, hkey, hblock, hblock, rfl, rfl⟩

/-! ## Operations -/

/-- A legal key length gives one to eight key words (00_scope.md R6, 30_encoding.md R87). -/
theorem keyWordCount_legal {s : State} (h : keyLenLegal Config.keyLenSet (keyBytes s) = true) :
    1 ≤ (keyWordCount s).toNat ∧ (keyWordCount s).toNat ≤ 8 := by
  have hmem : keyBytes s ∈ [4, 8, 12, 16, 20, 24, 28, 32] := (keyLenLegal_iff _ _).1 h
  simp only [List.mem_cons, List.not_mem_nil, or_false] at hmem
  simp only [keyWordCount, BitVec.toNat_ofNat]
  omega

/-- A CMD write made while idle clears DONE and ERR before it issues or raises (44_commands.md R180). -/
theorem State.Inv.command {s : State} (h : s.Inv) (d : Cmd) : (command d s).Inv := by
  rcases command_cases d s with ⟨-, e⟩ | ⟨-, hcheck, e⟩ | ⟨hidle, hcheck, e⟩ <;> rw [e]
  · exact h.congr rfl rfl rfl rfl rfl
  · have hcount := keyWordCount_legal (checkCmd_none hcheck).2
    constructor
    case countLegal => exact fun _ => hcount
    all_goals simp [Internal.ready]
  · have hphase := h.phaseIff
    constructor <;> simp [hidle, hcheck, hphase]

/-- A completion leaves DONE = 1, so it needs ERR = 0 before it, which a running command has. -/
theorem finish_inv {s : State} (herr : s.err = false) (hcode : s.errcode = .none) (y : Block) : (finish y s).Inv := by
  constructor <;> simp [herr, hcode]

theorem State.Inv.completeStep {s : State} (h : s.Inv) : (completeStep s).Inv := by
  cases hbusy : s.busy with
  | true =>
    have herr := (h.busyClean hbusy).2
    rw [completeStep_busy hbusy]
    exact finish_inv herr (h.errcodeIff.2 herr) _
  | false => rw [completeStep_idle hbusy]; exact h

theorem State.Inv.whenSet {s : State} {f : State → State} (h : s.Inv) (b : Bool) (hf : (f s).Inv) :
    (whenSet b f s).Inv := by
  cases b with
  | true => exact hf
  | false => exact h

theorem State.Inv.clearDone {s : State} (h : s.Inv) : (clearDone s).Inv where
  notBoth := by simp
  errcodeIff := h.errcodeIff
  busyClean hbusy := ⟨rfl, (h.busyClean hbusy).2⟩
  phaseIff := h.phaseIff
  countLegal := h.countLegal
  seqReady := h.seqReady

/-- ERR and ERRCODE are cleared together (10_state.md R25, R28). -/
theorem State.Inv.clearErr {s : State} (h : s.Inv) : (clearErr s).Inv where
  notBoth := by simp
  errcodeIff := by simp
  busyClean hbusy := ⟨(h.busyClean hbusy).1, rfl⟩
  phaseIff := h.phaseIff
  countLegal := h.countLegal
  seqReady := h.seqReady

theorem State.Inv.writeStatus {s : State} (h : s.Inv) (v : Word) : (writeStatus v s).Inv := by
  have hdone := h.whenSet (v.getLsbD 1) h.clearDone
  have herr := hdone.whenSet (v.getLsbD 2) hdone.clearErr
  exact herr.whenSet (v.getLsbD 3) (herr.congr rfl rfl rfl rfl rfl)

theorem exec_keeps_inv {i : Instr} {s t : State} (h : s.Inv) (he : exec i s = .next t) : t.Inv := by
  rcases exec_cases i s with ⟨d, e, -⟩ | ⟨-, e⟩ | ⟨v, e, -⟩ | ⟨e, -⟩ | ⟨e, -⟩ | ⟨v, -, e⟩ | ⟨v, -, e⟩ | ⟨v, -, e⟩ |
      ⟨k, v, -, e⟩ | ⟨k, v, -, e⟩ <;> cases e.symm.trans he
  · exact (h.command d).congr rfl rfl rfl rfl rfl
  · exact h.completeStep
  · exact h.congr rfl rfl rfl rfl rfl
  · exact h.congr rfl rfl rfl rfl rfl
  · exact h.congr rfl rfl rfl rfl rfl
  · exact h.congr rfl rfl rfl rfl rfl
  · exact (h.writeStatus v).congr rfl rfl rfl rfl rfl
  · exact h.congr rfl rfl rfl rfl rfl
  · exact h.congr rfl rfl rfl rfl rfl
  · exact h.congr rfl rfl rfl rfl rfl

/-! ## Clocks -/

theorem Internal.ready_of_lt {n : Internal} (h : n.j.val < n.snap.c.toNat) : n.ready := by
  cases hphase : n.phase <;> simp [Internal.ready, hphase, h]

theorem Internal.ready.lt {n : Internal} (h : n.ready) (hidle : n.phase ≠ .idle) (hinit : n.phase ≠ .ksInit) :
    n.j.val < n.snap.c.toNat := by
  cases hphase : n.phase <;> simp_all [Internal.ready]

/-- New internal words of a running command keep the invariant if they keep the key word count and are ready. -/
theorem State.Inv.running {s : State} (h : s.Inv) (hbusy : s.busy = true) {n : Internal} (hphase : n.phase ≠ .idle)
    (hc : n.snap.c = s.int.snap.c) (hready : n.ready) : State.Inv { s with int := n } where
  notBoth := h.notBoth
  errcodeIff := h.errcodeIff
  busyClean := h.busyClean
  phaseIff := by simp [hphase, hbusy]
  countLegal := by simpa only [hc] using h.countLegal
  seqReady := fun _ => hready

theorem cycleStep_keeps_inv {s : State} (h : s.Inv) : (cycleStep s).Inv := by
  by_cases hidle : s.int.phase = .idle
  · rw [cycleStep_idle hidle]
    exact h
  have hbusy : s.busy = true := by simpa [h.phaseIff] using hidle
  obtain ⟨h1, h8⟩ := h.countLegal hbusy
  have hready := h.seqReady hbusy
  cases hphase : s.int.phase with
  | idle => exact absurd hphase hidle
  | ksInit =>
    rw [cycleStep_ksInit hphase]
    exact h.running hbusy nofun rfl (Internal.ready_of_lt h1)
  | ksMix =>
    rw [cycleStep_ksMix hphase]
    exact h.running hbusy (cycleKsMix_phase_ne_idle _) rfl (Internal.ready_of_lt (nextJ_lt h1 h8 _))
  | pre =>
    have hj := hready.lt hidle (by simp [hphase])
    rw [cycleStep_pre hphase]
    exact h.running hbusy nofun rfl (Internal.ready_of_lt hj)
  | round =>
    have hj := hready.lt hidle (by simp [hphase])
    rw [cycleStep_round hphase]
    exact h.running hbusy (cycleRound_phase_ne_idle _) rfl (Internal.ready_of_lt hj)
  | post =>
    have herr := (h.busyClean hbusy).2
    rw [cycleStep_post hphase]
    refine finish_inv ?_ ?_ _
    · exact herr
    · exact h.errcodeIff.2 herr

/-! ## The step -/

/-- Settles O15, by what a step can do: an operation, a clock, or a change of nothing that the invariant speaks of, and
a reset leaves the invariant of the reset state. -/
theorem stepKeepsTheInvariant : Obligations.StepKeepsTheInvariant := by
  intro s t h hstep
  have hagenda (a : List Event) : State.Inv { s with agenda := a } := h.congr rfl rfl rfl rfl rfl
  rcases step_cases hstep with ⟨i, a, he⟩ | ⟨r, a, rfl⟩ | ⟨rest, -, rfl⟩ | ⟨rest, -, rfl⟩ | ⟨d, v, rest, -, rfl⟩
  · exact exec_keeps_inv (hagenda a) he
  · exact h.congr rfl rfl rfl rfl rfl
  · exact cycleStep_keeps_inv (hagenda rest)
  · exact resetMeetsTheInvariant.congr rfl rfl rfl rfl rfl
  · unfold resetAccessStep
    split <;> exact resetMeetsTheInvariant.congr rfl rfl rfl rfl rfl

end Sys2Proof.Machine
end

section
/-! The frames of the operations and the answers of the accesses. -/

namespace Sys2Proof.Machine

/-- Settles O24: each shape that an operation can have changes its own registers only. -/
theorem eachRegisterHasItsWriters : Obligations.EachRegisterHasItsWriters := by
  intro s t i he
  rcases exec_cases i s with ⟨d, e, hrow⟩ | ⟨rfl, e⟩ | ⟨v, e, hne⟩ | ⟨e, hne⟩ | ⟨e, hne⟩ | ⟨v, rfl, e⟩ | ⟨v, rfl, e⟩ |
      ⟨v, rfl, e⟩ | ⟨k, v, rfl, e⟩ | ⟨k, v, rfl, e⟩ <;> cases e.symm.trans he
  case inl =>
    have hne : i ≠ .complete := by rintro rfl; cases hrow
    simp [hrow, hne]
  all_goals simp [*]

theorem completeStep_dout_ne {s : State} (h : (completeStep s).dout ≠ s.dout) :
    s.busy = true ∧ (completeStep s).busy = false ∧ (completeStep s).done = true := by
  cases hbusy : s.busy with
  | true => simp [completeStep_busy hbusy]
  | false => exact absurd (by rw [completeStep_idle hbusy]) h

/-- Settles O36: the only operation that changes DOUT is a completion, and the only clock that does is one of POST, which
completes. -/
theorem doutChangesOnlyAtCompletion : Obligations.DoutChangesOnlyAtCompletion := by
  intro s t h hstep hdout
  rcases step_cases hstep with ⟨i, a, he⟩ | ⟨r, a, rfl⟩ | ⟨rest, -, rfl⟩ | ⟨rest, ha, -⟩ | ⟨d, v, rest, ha, -⟩
  · obtain ⟨-, -, -, -, hwriter, -⟩ := eachRegisterHasItsWriters _ _ i he
    obtain rfl := hwriter hdout
    cases he
    exact .inl (completeStep_dout_ne hdout)
  · exact absurd rfl hdout
  · rcases cycleStep_cases { s with agenda := rest } with ⟨n, e⟩ | ⟨hpost, y, n, e⟩ <;> rw [e] at hdout ⊢
    · exact absurd rfl hdout
    · have hbusy : s.busy = true := by simpa [show s.int.phase = .post from hpost] using h.phaseIff
      exact .inl ⟨hbusy, rfl, rfl⟩
  · exact .inr (.inl ⟨rest, ha⟩)
  · exact .inr (.inr ⟨d, v, rest, ha⟩)

/-! ## Answers -/

/-- The answer of an operation does not depend on KEY or the internal state. -/
theorem exec_resp_of_hidden {i : Instr} {s t t' : State} {key : Vector Word 8} {int : Internal}
    (he : exec i s = .next t) (he' : exec i { s with key := key, int := int } = .next t') : t'.resp = t.resp := by
  cases i with
  | complete =>
    cases he
    cases he'
    simp
  | rsvA dir | rsvB dir | rsvC dir | rsvD dir =>
    cases dir <;> cases he <;> cases he' <;> rfl
  | _ =>
    cases he
    cases he'
    rfl

/-- Settles O39, input by input: only an access and a poll read registers, and they read none of the hidden ones. -/
theorem keysAndHiddenStateNeverAnswered : Obligations.KeysAndHiddenStateNeverAnswered := by
  intro s t t' key int h h'
  cases ha : s.agenda with
  | nil =>
    rw [step_quiet ha] at h
    rw [step_quiet (by exact ha)] at h'
    exact exec_resp_of_hidden (i := .complete) h h'
  | cons e rest =>
    rw [step_event ha] at h
    rw [step_event (by exact ha)] at h'
    cases e with
    | access d v => exact exec_resp_of_hidden h h'
    | sequencer => exact exec_resp_of_hidden (i := .complete) h h'
    | poll r mask val turns =>
      simp only [eventStep, pollStep_eq] at h h'
      cases h
      cases h'
      exact congrArg (some <| Response.data ·) (readReg_of_hidden r _ key int _ _)
    | cycle =>
      cases h
      cases h'
      simp
    | reset =>
      cases h
      cases h'
      rfl
    | accessInReset d v =>
      cases h
      cases h'
      rfl

end Sys2Proof.Machine
end

section
/-! How a placed instruction comes to run (log 20): its bits are the bytes of a packet, and the placed access is the one
that the packet decodes to. -/

namespace Sys2Proof.Machine

theorem lowBytes_four (n : Nat) : lowBytes 4 n = wordBytes (BitVec.ofNat 32 n) := by
  simp only [lowBytes, wordBytes, List.cons.injEq, and_true]
  refine ⟨?_, ?_, ?_, ?_⟩ <;> apply BitVec.eq_of_toNat_eq <;> simp [Nat.shiftRight_eq_div_pow] <;> omega

theorem lowBytes_six (n : Nat) : lowBytes 6 n =
    BitVec.ofNat 8 n :: BitVec.ofNat 8 (n / 256) :: wordBytes (BitVec.ofNat 32 (n / 65536)) := by
  rw [← lowBytes_four, lowBytes, lowBytes, Nat.div_div_eq_div_mul]

/-- Six bytes whose descriptor field has bits 15 to 11 zero are those of an access. -/
theorem lowBytes_six_access {n : Nat} (h : n % 65536 < 2048) :
    lowBytes 6 n = (Packet.access (BitVec.ofNat 11 n) (BitVec.ofNat 32 (n / 65536))).bytes := by
  have hlow : (BitVec.ofNat 11 n).extractLsb 7 0 = BitVec.ofNat 8 n := by
    apply BitVec.eq_of_toNat_eq
    simp
  have hhigh : BitVec.zeroExtend 8 ((BitVec.ofNat 11 n).extractLsb 10 8) = BitVec.ofNat 8 (n / 256) := by
    apply BitVec.eq_of_toNat_eq
    simp [Nat.shiftRight_eq_div_pow]
    omega
  rw [lowBytes_six, Packet.bytes, hlow, hhigh]

/-- Any other six bytes are no packet (log 15). -/
theorem decode_lowBytes_six_error {n : Nat} (h : ¬ n % 65536 < 2048) :
    decode (lowBytes 6 n) = .error .descriptorBits := by
  have hbits : (BitVec.ofNat 8 (n / 256)).extractLsb 7 3 ≠ 0 := by
    intro hzero
    have hnat := congrArg BitVec.toNat hzero
    simp [Nat.shiftRight_eq_div_pow] at hnat
    omega
  rw [lowBytes_six, wordBytes, decode, if_pos hbits]

/-- Settles O7: the three lay-outs of `tableBytes` are the three cases of `fetchEvent`. -/
theorem placedInstructionIsRun : Obligations.PlacedInstructionIsRun := by
  intro s nbits w i h
  unfold decodeTableWord tableBytes at h
  unfold State.withFetchWord fetchEvent
  by_cases hcmd : 16 < nbits ∧ nbits ≤ 32
  · rw [if_pos hcmd, lowBytes_four, ← Packet.bytes, decode_command] at h
    cases h
    rw [if_pos hcmd, exec_decodeCommandWord]
    exact step_cons s _
  · rw [if_neg hcmd] at h ⊢
    by_cases hbits : w % 65536 < 2048
    · rw [lowBytes_six_access hbits, decode_access] at h
      cases h
      rw [if_pos hbits]
      exact step_cons s _
    · rw [decode_lowBytes_six_error hbits] at h
      cases h

end Sys2Proof.Machine
end

section
/-! The registers as the window shows them: what a read at an offset returns, and what a write changes of it. -/

namespace Sys2Proof.Machine

/-! ## Reads by offset -/

/-- Every register of the window (10_state.md R20). -/
def registers : List Reg :=
  [Reg.id, Reg.ctrl, Reg.status, Reg.cmd, Reg.keylen] ++ (List.finRange 8).map Reg.key ++ (List.finRange 4).map Reg.din ++
    (List.finRange 4).map Reg.dout

theorem mem_registers (r : Reg) : r ∈ registers := by
  cases r <;> simp [registers]

theorem regOffset_inj {r r' : Reg} : regOffset r = regOffset r' ↔ r = r' := by
  have hdistinct : ∀ x ∈ registers, ∀ y ∈ registers, regOffset x = regOffset y → x = y := by decide +kernel
  exact ⟨hdistinct r (mem_registers r) r' (mem_registers r'), congrArg regOffset⟩

theorem regOffset_aligned (r : Reg) : (regOffset r).extractLsb 1 0 = 0 := by
  have haligned : ∀ x ∈ registers, (regOffset x).extractLsb 1 0 = 0 := by decide +kernel
  exact haligned r (mem_registers r)

/-- The reads of the reserved offsets. -/
def reservedReads : List Instr :=
  Instr.rsvA .read :: (List.finRange 2).map (Instr.rsvB .read) ++ (List.finRange 8).map (Instr.rsvC .read) ++
    (List.finRange 32).map (Instr.rsvD .read)

theorem mem_reservedReads {i : Instr} : i ∈ reservedReads ↔
    i = .rsvA .read ∨ (∃ n, i = .rsvB .read n) ∨ (∃ n, i = .rsvC .read n) ∨ ∃ n, i = .rsvD .read n := by
  simp [reservedReads, eq_comm]

theorem exec_reservedRead {i : Instr} (h : i ∈ reservedReads) (s : State) : exec i s = .next (respondData 0#32 s) := by
  rcases mem_reservedReads.1 h with rfl | ⟨n, rfl⟩ | ⟨n, rfl⟩ | ⟨n, rfl⟩ <;> rfl

/-- An aligned offset is that of a register or a reserved one. -/
theorem aligned_offset_cases {off : Byte} (h : off.extractLsb 1 0 = 0) :
    (∃ r, off = regOffset r) ∨ decodeWordAccess .read off ∈ reservedReads := by
  have hcases : (∃ r ∈ registers, off = regOffset r) ∨ decodeWordAccess .read off ∈ reservedReads := by
    revert off
    decide +kernel
  exact hcases.imp_left fun ⟨r, _, hr⟩ => ⟨r, hr⟩

theorem readOffset_regOffset (r : Reg) (s : State) : readOffset (regOffset r) s = readReg r s := by
  rw [readOffset, if_neg (not_not.2 (regOffset_aligned r))]
  cases r with
  | key k | din k | dout k => fin_cases k <;> rfl
  | id | ctrl | status | cmd | keylen => rfl

theorem readOffset_reserved {off : Byte} (h : decodeWordAccess .read off ∈ reservedReads) (s : State) :
    readOffset off s = 0#32 := by
  unfold readOffset
  split
  · rfl
  · rcases mem_reservedReads.1 h with e | ⟨n, e⟩ | ⟨n, e⟩ | ⟨n, e⟩ <;> rw [e]

/-- Where no register is, zero is read. -/
theorem readOffset_of_no_register {off : Byte} (h : ∀ r, off ≠ regOffset r) (s : State) : readOffset off s = 0#32 := by
  by_cases haligned : off.extractLsb 1 0 = 0
  · rcases aligned_offset_cases haligned with ⟨r, hr⟩ | hreserved
    · exact absurd hr (h r)
    · exact readOffset_reserved hreserved s
  · rw [readOffset, if_pos haligned]

theorem decodeAccess_aligned_read {off : Byte} (h : off.extractLsb 1 0 = 0) :
    decodeAccess (descriptor false 2 off) 0#32 = decodeWordAccess .read off := by
  revert off
  decide +kernel

/-- Settles O22: at a register's offset the read is the register's, and elsewhere it is a reserved read. -/
theorem alignedReadAnswersTheOffset : Obligations.AlignedReadAnswersTheOffset := by
  intro s off h
  rcases aligned_offset_cases h with ⟨r, rfl⟩ | hreserved
  · rw [readOffset_regOffset]
    exact readInstr_exec r s
  · rw [decodeAccess_aligned_read h, readOffset_reserved hreserved]
    exact exec_reservedRead hreserved s

/-! ## Writes by offset -/

/-- If one register reads differently, its offset does, and no other. -/
theorem readOffset_of_written {r₀ : Reg} {v : Word} {s t : State}
    (h : ∀ r, readReg r t = if r = r₀ then v else readReg r s) (off : Byte) :
    readOffset off t = if off.toNat = (regOffset r₀).toNat then v else readOffset off s := by
  by_cases hreg : ∃ r, off = regOffset r
  · obtain ⟨r, rfl⟩ := hreg
    simp only [readOffset_regOffset, h, BitVec.toNat_inj, regOffset_inj]
  · have hnone : ∀ r, off ≠ regOffset r := not_exists.1 hreg
    rw [readOffset_of_no_register hnone, readOffset_of_no_register hnone,
      if_neg (mt BitVec.eq_of_toNat_eq (hnone r₀))]

/-- If no register reads differently, no offset does. -/
theorem readOffset_congr {s t : State} (h : ∀ r, readReg r t = readReg r s) (off : Byte) :
    readOffset off t = readOffset off s := by
  by_cases hreg : ∃ r, off = regOffset r
  · obtain ⟨r, rfl⟩ := hreg
    simp only [readOffset_regOffset, h]
  · have hnone : ∀ r, off ≠ regOffset r := not_exists.1 hreg
    rw [readOffset_of_no_register hnone, readOffset_of_no_register hnone]

theorem regOffset_din_toNat (k : Fin 4) : (regOffset (.din k)).toNat = 0x40 + 4 * k.val := by
  simp only [regOffset, BitVec.toNat_ofNat]
  omega

theorem readReg_writeDin (k : Fin 4) (v : Word) (s : State) (r : Reg) :
    readReg r (respondWritten (writeDin k v s)) = if r = .din k then v else readReg r s := by
  cases r with
  | din j => simp [readReg, vector_get_set]
  | _ => rfl

theorem keylenWord_eq (b : Byte) : (0#24 ++ b : BitVec 32) = BitVec.ofNat 32 b.toNat := by
  apply BitVec.eq_of_toNat_eq
  rw [BitVec.toNat_append]
  simp
  omega

theorem ctrlWord_eq (s : State) : ctrlWord s = BitVec.ofNat 32 s.ie.toNat := by
  rw [ctrlWord]
  cases s.ie <;> rfl

theorem getLsbD_zero_toNat (v : Word) : (v.getLsbD 0).toNat = v.toNat % 2 := by
  rw [BitVec.getLsbD, Nat.toNat_testBit, pow_zero, Nat.div_one]

theorem readReg_writeKeylen (v : Word) (s : State) (r : Reg) :
    readReg r (respondWritten (writeKeylen v s)) =
      if r = .keylen then BitVec.ofNat 32 (v.toNat % 256) else readReg r s := by
  cases r with
  | keylen => simp [readReg, keylenWord_eq]
  | _ => rfl

theorem readReg_writeCtrl (v : Word) (s : State) (r : Reg) :
    readReg r (respondWritten (writeCtrl v s)) =
      if r = .ctrl then BitVec.ofNat 32 (v.toNat % 2) else readReg r s := by
  cases r with
  | ctrl => simp only [readReg, ctrlWord_eq, respondWritten_ie, writeCtrl_ie, getLsbD_zero_toNat, if_true]
  | _ => rfl

/-- Settles O23, from what each write changes of what the registers read. -/
theorem writesChangeOnlyTheirOffset : Obligations.WritesChangeOnlyTheirOffset := by
  intro s t v off
  refine ⟨fun k he => ?_, fun he => ?_, fun he => ?_, fun i hi he => ?_⟩
  · cases he
    rw [readOffset_of_written (readReg_writeDin k v s), regOffset_din_toNat]
  · cases he
    rw [readOffset_of_written (readReg_writeKeylen v s)]
    rfl
  · cases he
    rw [readOffset_of_written (readReg_writeCtrl v s)]
    rfl
  · rcases hi with ⟨k, rfl⟩ | rfl | ⟨k, rfl⟩ | rfl | ⟨n, rfl⟩ | ⟨n, rfl⟩ | ⟨n, rfl⟩ <;> cases he <;>
      exact readOffset_congr (fun r => readReg_of_hidden r s _ _ _ _) off

end Sys2Proof.Machine
end

section
/-! STATUS after a failed command, and the interrupt level. -/

namespace Sys2Proof.Machine

/-- BLEN of a command word (30_encoding.md R80). -/
theorem decodeCmd_blen {w : Word} {b : Byte} (h : decodeCmd w = .enc b ∨ decodeCmd w = .dec b) :
    b.toNat = w.toNat / 256 % 256 := by
  have hb : b = w.extractLsb 15 8 := by
    unfold decodeCmd at h
    split_ifs at h <;> simp_all
  rw [hb]
  simp [BitVec.extractLsb_toNat, Nat.shiftRight_eq_div_pow]

/-- The code of a failed command, by its word (44_commands.md R181). -/
theorem checkCmd_failed {w : Word} {s : State} (h : checkCmd (decodeCmd w) s ≠ .none) :
    checkCmd (decodeCmd w) s =
      if decodeCmd w = .illegal then .illegalCmd else if w.toNat / 256 % 256 ≠ 16 then .blockSize else .keySize := by
  cases hd : decodeCmd w with
  | illegal => rfl
  | enc b | dec b =>
    rw [hd] at h
    rw [← decodeCmd_blen (b := b) (by simp [hd])]
    by_cases hb : b.toNat = 16
    · simp_all [checkCmd, Config.blockBytes]
    · simp [checkCmd, Config.blockBytes, hb]

theorem readReg_status_failed {s : State} (hidle : s.busy = false) (hovr : s.cmdovr = false) (code : ErrCode) :
    readReg .status (respondWritten (raiseCmdError code (clearOutcome s))) =
      (0#20 ++ code.code ++ 0x04#8 : BitVec 32) := by
  simp only [readReg, statusWord, respondWritten_errcode]
  cases code <;> simp [hidle, hovr, ErrCode.code]

/-- Settles O30: of the three things that a CMD write can do, only a failed command leaves ERR = 1. -/
theorem statusWordsOfTheErrors : Obligations.StatusWordsOfTheErrors := by
  intro s t w hidle hovr he herr
  rw [exec_wrCmd_eq] at he
  cases he
  rcases command_cases (decodeCmd w) s with ⟨hbusy, -⟩ | ⟨-, -, e⟩ | ⟨-, hcheck, e⟩
  · cases hidle.symm.trans hbusy
  · rw [e] at herr
    cases herr
  · rw [e, readReg_status_failed hidle hovr, checkCmd_failed hcheck]
    split_ifs <;> rfl

/-- Settles O25, which is R35's own formula. -/
theorem interruptFollowsDoneAndErr : Obligations.InterruptFollowsDoneAndErr :=
  fun s => ⟨by simp [irq], rfl, rfl⟩

end Sys2Proof.Machine
end

section
/-! Hidden words never show (10_state.md R44). The one place where hidden words are read is the completion, and there the
key schedule reads only the key words below the count. -/

namespace Sys2Proof.Machine

/-! ## The key schedule reads only its key words (41_key_schedule.md R126) -/

/-- Two states of the mixing loop that differ only in key words from the `c`-th on, which the loop does not reach. -/
def Mix.SameBelow (c : Nat) (m m' : Mix) : Prop :=
  m' = { m with L := m'.L } ∧ m.j.val < c ∧ ∀ j : Fin 8, j.val < c → m'.L.get j = m.L.get j

theorem mixStep_sameBelow {c : Nat} (h1 : 1 ≤ c) (h8 : c ≤ 8) {m m' : Mix} (h : m.SameBelow c m') :
    (mixStep c m).SameBelow c (mixStep c m') := by
  obtain ⟨heq, hj, hL⟩ := h
  obtain ⟨L', rfl⟩ : ∃ L', m' = { m with L := L' } := ⟨_, heq⟩
  have hread : L'.get m.j = m.L.get m.j := hL m.j hj
  refine ⟨?_, nextJ_lt h1 h8 m.j, fun j hjc => ?_⟩
  · simp only [mixStep, hread]
  · simp only [mixStep, hread, vector_get_set]
    rw [hL j hjc]

theorem mixLoop_sameBelow {c : Nat} (h1 : 1 ≤ c) (h8 : c ≤ 8) (n : Nat) {m m' : Mix} (h : m.SameBelow c m') :
    (mixLoop c n m).SameBelow c (mixLoop c n m') := by
  induction n generalizing m m' with
  | zero => exact h
  | succ n ih => exact ih (mixStep_sameBelow h1 h8 h)

theorem keySchedule_congr (p q : Word) {L L' : Vector Word 8} {c : Nat} (h1 : 1 ≤ c) (h8 : c ≤ 8)
    (hL : ∀ j : Fin 8, j.val < c → L'.get j = L.get j) : keySchedule p q L' c = keySchedule p q L c := by
  have hstart : (mixStart p q L).SameBelow c (mixStart p q L') := ⟨rfl, h1, hL⟩
  obtain ⟨heq, -, -⟩ := mixLoop_sameBelow h1 h8 (mixIterations c) hstart
  exact (congrArg Mix.S heq).trans rfl

theorem snapResult_congr {n n' : Snapshot} (h1 : 1 ≤ n.c.toNat) (h8 : n.c.toNat ≤ 8) (hop : n'.op = n.op)
    (hc : n'.c = n.c) (hblk : n'.blk = n.blk) (hL : ∀ j : Fin 8, j.val < n.c.toNat → n'.L.get j = n.L.get j) :
    snapResult n' = snapResult n := by
  simp only [snapResult, snapSchedule, hop, hc, hblk, keySchedule_congr _ _ h1 h8 hL]

/-! ## Operations on states that agree -/

theorem State.Agree.refl {s : State} (h : s.int.phase = .idle ∨ s.int.phase = .ksInit) : s.Agree s :=
  ⟨rfl, rfl, h, fun _ => ⟨rfl, rfl, rfl, fun _ _ => rfl⟩⟩

/-- Agreement outlasts a change that leaves BUSY and the internal state of both what they were. -/
theorem State.Agree.of_int_kept {s s' : State} {n : Internal} (h : s.Agree { s with int := n })
    (hbusy : s'.busy = s.busy) (hint : s'.int = s.int) : s'.Agree { s' with int := n } := by
  obtain ⟨-, hphase, hstart, hsnap⟩ := h
  refine ⟨rfl, ?_, ?_, ?_⟩
  · rw [hint]; exact hphase
  · rw [hint]; exact hstart
  · rw [hbusy, hint]; exact hsnap

/-- A CMD write reads no hidden word, and the snapshot that it takes is of the registers. -/
theorem State.Agree.command {s t : State} (h : s.Agree t) (d : Cmd) : (command d s).Agree (command d t) := by
  obtain ⟨n, rfl⟩ : ∃ n, t = { s with int := n } := ⟨_, h.1⟩
  have hc : checkCmd d { s with int := n } = checkCmd d s := checkCmd_congr d rfl
  rcases command_cases d s with ⟨hbusy, e⟩ | ⟨hidle, hcheck, e⟩ | ⟨hidle, hcheck, e⟩ <;> rw [e]
  · rw [command_busy d (by exact hbusy)]
    exact h.of_int_kept rfl rfl
  · rw [command_accepted (by exact hidle) (hc.trans hcheck)]
    exact ⟨rfl, rfl, .inr rfl, fun _ => ⟨rfl, rfl, rfl, fun _ _ => rfl⟩⟩
  · rw [command_failed (by exact hidle) (hc ▸ hcheck), hc]
    exact h.of_int_kept rfl rfl

/-- A completion reads of the hidden words only what the states agree in. -/
theorem State.Agree.completeStep {s t : State} (hinv : s.Inv) (h : s.Agree t) :
    (completeStep s).Agree (completeStep t) := by
  have ⟨heq, hphase, hstart, hsnap⟩ := h
  have hbusyeq : t.busy = s.busy := by rw [heq]
  cases hbusy : s.busy with
  | false =>
    rw [completeStep_idle hbusy, completeStep_idle (hbusyeq.trans hbusy)]
    exact h
  | true =>
    obtain ⟨h1, h8⟩ := hinv.countLegal hbusy
    obtain ⟨hop, hc, hblk, hL⟩ := hsnap hbusy
    have hresult : pendingResult t.int = pendingResult s.int := by
      have hsame := snapResult_congr h1 h8 hop hc hblk hL
      rcases hstart with hp | hp <;> simpa only [pendingResult, hphase, hp] using hsame
    rw [completeStep_busy hbusy, completeStep_busy (hbusyeq.trans hbusy), hresult, heq]
    exact ⟨rfl, rfl, .inl rfl, nofun⟩

theorem State.Agree.respondWritten {s t : State} (h : s.Agree t) : (respondWritten s).Agree (respondWritten t) := by
  obtain ⟨n, rfl⟩ : ∃ n, t = { s with int := n } := ⟨_, h.1⟩
  exact h.of_int_kept rfl rfl

/-- Every other operation than a completion and a CMD write neither reads nor changes the internal state. -/
theorem exec_of_int {i : Instr} {s u : State} (hcomplete : i ≠ .complete) (hrow : i.accessRow ≠ some .wrCmd)
    (he : exec i s = .next u) (n : Internal) : exec i { s with int := n } = .next { u with int := n } := by
  cases i with
  | complete => exact absurd rfl hcomplete
  | enc b | dec b | illegal w | cmdWhileBusy w | wrCmd w => exact absurd rfl hrow
  | rsvA dir | rsvB dir | rsvC dir | rsvD dir =>
    cases dir <;> cases he <;> rfl
  | wrStatus v =>
    cases he
    simp only [exec, execWrStatus, writeStatus_eq]
    rfl
  | _ =>
    cases he
    rfl

/-- Every operation keeps the agreement. -/
theorem State.Agree.exec {i : Instr} {s t s' t' : State} (hinv : s.Inv) (h : s.Agree t) (he : exec i s = .next s')
    (he' : exec i t = .next t') : s'.Agree t' := by
  by_cases hcomplete : i = .complete
  · subst hcomplete
    cases he
    cases he'
    exact h.completeStep hinv
  by_cases hrow : i.accessRow = some .wrCmd
  · obtain ⟨d, hd⟩ := exec_commandRow hrow
    rw [hd] at he he'
    cases he
    cases he'
    exact (h.command d).respondWritten
  · obtain ⟨n, rfl⟩ : ∃ n, t = { s with int := n } := ⟨_, h.1⟩
    cases (exec_of_int hcomplete hrow he n).symm.trans he'
    obtain ⟨-, -, -, -, -, hint, hbusy, -⟩ := eachRegisterHasItsWriters s s' i he
    have hnone : ¬ (i = .complete ∨ i.accessRow = some .wrCmd) := not_or.2 ⟨hcomplete, hrow⟩
    exact h.of_int_kept (not_not.1 (mt hbusy hnone)) (not_not.1 (mt hint hnone))

/-! ## The step -/

/-- Settles O40, input by input: operations keep the agreement, a poll reads no hidden word, and a reset leaves two equal
states. -/
theorem hiddenWordsNeverShow : Obligations.HiddenWordsNeverShow := by
  intro s t s' t' hinv h hcycle hs ht
  obtain ⟨n, rfl⟩ : ∃ n, t = { s with int := n } := ⟨_, h.1⟩
  cases ha : s.agenda with
  | nil =>
    rw [step_quiet ha] at hs
    rw [step_quiet (by exact ha)] at ht
    exact h.exec (i := .complete) hinv hs ht
  | cons e rest =>
    have hinv' : State.Inv { s with agenda := rest } := hinv.congr rfl rfl rfl rfl rfl
    have h' : State.Agree { s with agenda := rest } { s with int := n, agenda := rest } := h.of_int_kept rfl rfl
    rw [step_event ha] at hs
    rw [step_event (by exact ha)] at ht
    cases e with
    | access d v => exact h'.exec hinv' hs ht
    | sequencer => exact h'.exec (i := .complete) hinv' hs ht
    | poll r mask val turns =>
      rw [eventStep, pollStep_eq] at hs ht
      cases hs
      cases ht
      rw [readReg_of_hidden r { s with agenda := rest } s.key n s.resp rest]
      exact h.of_int_kept rfl rfl
    | cycle => exact absurd ha (hcycle rest)
    | reset =>
      cases hs
      cases ht
      exact .refl (.inl rfl)
    | accessInReset d v =>
      cases hs
      cases ht
      refine .refl (.inl ?_)
      unfold resetAccessStep
      split <;> rfl

end Sys2Proof.Machine
end

section
/-! The accesses of the window (20_memory.md): where it stands, which accesses reach a register, what a step makes of one,
and what none of them does to a running command. -/

namespace Sys2Proof.Machine

/-! ## Rows of an access -/

/-- The rows of the accesses that the core does not support (44_commands.md R205). -/
def busErrorRows : List AccessRow := [.busErrSize1, .busErrSize2, .busErrSizeRsv, .busErrOdd, .busErrHalf]

@[simp] theorem accessRow_setWdata (v : Word) (i : Instr) : (i.setWdata v).accessRow = i.accessRow := by
  cases i with
  | rsvA dir | rsvB dir | rsvC dir | rsvD dir
  | busErrSize1 dir | busErrSize2 dir | busErrSizeRsv dir | busErrOdd dir | busErrHalf dir =>
    cases dir <;> rfl
  | _ => rfl

/-- Every access has a row, and it is an unsupported one exactly when the access is not an aligned 32-bit access. -/
theorem decodeAccess_accessRow (d : BitVec 11) (v : Word) :
    ∃ r, (decodeAccess d v).accessRow = some r ∧
      (r ∈ busErrorRows ↔ d.extractLsb 9 8 ≠ 2 ∨ d.extractLsb 1 0 ≠ 0) := by
  rw [decodeAccess_wdata, accessRow_setWdata]
  have hrow : ∀ d, ∃ r ∈ (decodeAccess d 0#32).accessRow,
      (r ∈ busErrorRows ↔ d.extractLsb 9 8 ≠ 2 ∨ d.extractLsb 1 0 ≠ 0) := by decide +kernel
  exact hrow d

theorem exec_busErrorRow {i : Instr} {r : AccessRow} (hrow : i.accessRow = some r) (h : r ∈ busErrorRows) (s : State) :
    exec i s = .next (raiseBusError s) := by
  cases i with
  | busErrSize1 | busErrSize2 | busErrSizeRsv | busErrOdd | busErrHalf => rfl
  | complete => cases hrow
  | _ => cases hrow; exact absurd h (by decide)

/-- Every other row answers without an error: it carries a CMD write, or is answered as a read or as a write. -/
theorem exec_supportedRow {i : Instr} {r : AccessRow} (hrow : i.accessRow = some r) (h : r ∉ busErrorRows) (s : State) :
    ∃ t a, exec i s = .next t ∧ t.resp = some a ∧ a.isError = false := by
  cases i with
  | complete => cases hrow
  | busErrSize1 | busErrSize2 | busErrSizeRsv | busErrOdd | busErrHalf => cases hrow; exact absurd (by decide) h
  | rsvA dir | rsvB dir | rsvC dir | rsvD dir => cases dir <;> exact ⟨_, _, rfl, rfl, rfl⟩
  | _ => exact ⟨_, _, rfl, rfl, rfl⟩

/-- Settles O21: the row of the access decides, and it is an unsupported one exactly when the access is not an aligned
word. -/
theorem onlyAlignedWordsReachARegister : Obligations.OnlyAlignedWordsReachARegister := by
  intro s d v
  obtain ⟨r, hrow, hiff⟩ := decodeAccess_accessRow d v
  constructor
  · intro hbad
    exact ⟨.busError, exec_busErrorRow hrow (hiff.2 hbad) s, rfl, rfl⟩
  · intro hsize haligned
    have hsupported : r ∉ busErrorRows := fun h => (hiff.1 h).elim (absurd hsize) (absurd haligned)
    exact exec_supportedRow hrow hsupported s

/-! ## A running command -/

/-- Settles O37: a CMD write made while busy only sets CMDOVR, and no other row but COMPLETE writes BUSY, DOUT or the
internal state. -/
theorem noAccessDisturbsARunningCommand : Obligations.NoAccessDisturbsARunningCommand := by
  intro s t i hbusy hcomplete he
  by_cases hrow : i.accessRow = some .wrCmd
  · obtain ⟨d, hd⟩ := exec_commandRow hrow
    rw [hd, command_busy d hbusy] at he
    cases he
    exact ⟨hbusy, rfl, rfl⟩
  · obtain ⟨-, -, -, -, hdout, hint, hbusy', -⟩ := eachRegisterHasItsWriters s t i he
    have hnone : ¬ (i = .complete ∨ i.accessRow = some .wrCmd) := not_or.2 ⟨hcomplete, hrow⟩
    have busy_kept : t.busy = s.busy := not_not.1 (mt hbusy' hnone)
    exact ⟨busy_kept.trans hbusy, not_not.1 (mt hint hnone), not_not.1 (mt hdout hcomplete)⟩

/-! ## The step of an access -/

/-- The access at CMD's offset that carries a command word (30_encoding.md R86). -/
theorem decodeAccess_wrCmd (w : Word) : decodeAccess 0x60C#11 w = .wrCmd w := rfl

/-- Settles O6: the bytes of a packet decode to what the access decodes to, or for a command word to the row that has the
effect of its CMD write. -/
theorem stepRunsTheDecodedOperation : Obligations.StepRunsTheDecodedOperation := by
  constructor
  · intro s d v i rest hnext hdecode
    rw [decode_access] at hdecode
    cases hdecode
    exact step_event hnext
  · intro s w i rest hnext _ hdecode
    rw [decode_command] at hdecode
    cases hdecode
    rw [step_event hnext, exec_decodeCommandWord, eventStep, decodeAccess_wrCmd]

/-! ## The window -/

theorem windowOffset_eq_none_iff (addr : Nat) :
    windowOffset addr = none ↔ addr < Config.base ∨ Config.base + 256 ≤ addr := by
  simp only [windowOffset, ite_eq_right_iff, reduceCtorEq, imp_false]
  omega

theorem windowOffset_base_add (off : Byte) : windowOffset (Config.base + off.toNat) = some off := by
  have hin : Config.base ≤ Config.base + off.toNat ∧ Config.base + off.toNat < Config.base + 256 := by
    have := off.isLt
    omega
  rw [windowOffset, if_pos hin, Nat.add_sub_cancel_left, BitVec.ofNat_toNat, BitVec.setWidth_eq]

/-- Settles O57: BASE is 256 times the platform's block number. -/
theorem windowStandsAtBase : Obligations.WindowStandsAtBase :=
  ⟨Nat.mul_mod_right 256 Config.baseBlock, windowOffset_base_add, windowOffset_eq_none_iff⟩

end Sys2Proof.Machine
end

section
/-! Command words (30_encoding.md section 1): a word is an ENC or a DEC exactly when it is made of the fields
of one. -/

namespace Sys2Proof

/-- A concatenation as a sum: the two parts have no bit in common. -/
theorem toNat_append_eq_add {m n : Nat} (x : BitVec m) (y : BitVec n) :
    (x ++ y).toNat = x.toNat * 2 ^ n + y.toNat := by
  rw [BitVec.toNat_append, ← Nat.shiftLeft_add_eq_or_of_lt y.isLt, Nat.shiftLeft_eq]

theorem extractLsb_eq_iff {w : Word} {hi lo : Nat} {x : BitVec (hi - lo + 1)} :
    w.extractLsb hi lo = x ↔ w.toNat / 2 ^ lo % 2 ^ (hi - lo + 1) = x.toNat := by
  rw [← BitVec.toNat_inj, BitVec.extractLsb_toNat, Nat.shiftRight_eq_div_pow]

theorem commandWord_toNat (op : BitVec 4) (b : Byte) : (commandWord op b).toNat = 256 * b.toNat + op.toNat := by
  simp only [commandWord, toNat_append_eq_add, BitVec.toNat_ofNat]
  omega

/-- A command word is determined by its fields (R80). -/
theorem eq_commandWord_iff {w : Word} {op : BitVec 4} {b : Byte} : w = commandWord op b ↔
    w.extractLsb 31 16 = 0 ∧ w.extractLsb 7 4 = 0 ∧ w.extractLsb 3 0 = op ∧ w.extractLsb 15 8 = b := by
  have hw := w.isLt
  have hb := b.isLt
  have hop := op.isLt
  rw [← BitVec.toNat_inj, commandWord_toNat]
  simp only [extractLsb_eq_iff, BitVec.ofNat_eq_ofNat, BitVec.toNat_ofNat]
  omega

/-- The word with BLEN and one byte below it that holds OP and the reserved bits 7 to 4. -/
theorem commandWord_eq_append (op : BitVec 4) (b : Byte) :
    commandWord op b = (0#16 ++ b ++ (0#4 ++ op : BitVec 8) : BitVec 32) := by
  apply BitVec.eq_of_toNat_eq
  simp only [commandWord_toNat, toNat_append_eq_add, BitVec.toNat_ofNat]
  omega

theorem decodeCmd_eq_enc_iff {w : Word} {b : Byte} : decodeCmd w = .enc b ↔ w = commandWord 1 b := by
  rw [eq_commandWord_iff, decodeCmd]
  split_ifs with hreserved henc hdec
  · simp only [false_iff]
    tauto
  · simp_all
  · simp_all
  · simp_all

theorem decodeCmd_eq_dec_iff {w : Word} {b : Byte} : decodeCmd w = .dec b ↔ w = commandWord 2 b := by
  rw [eq_commandWord_iff, decodeCmd]
  split_ifs with hreserved henc hdec
  · simp only [false_iff]
    tauto
  · simp_all
  · simp_all
  · simp_all

theorem decodeCmd_eq_illegal_iff {w : Word} : decodeCmd w = .illegal ↔
    w.extractLsb 31 16 ≠ 0 ∨ w.extractLsb 7 4 ≠ 0 ∨ (w.extractLsb 3 0 ≠ 1 ∧ w.extractLsb 3 0 ≠ 2) := by
  rw [decodeCmd]
  split_ifs with hreserved henc hdec
  · simp only [true_iff]
    tauto
  · simp_all
  · simp_all
  · simp_all

/-- Settles O5: the fields of the word decide, read as bits for ENC and DEC and as numbers for ILLEGAL. -/
theorem commandWordsClassified : Obligations.CommandWordsClassified := by
  intro w
  refine ⟨fun b => ?_, fun b => ?_, ?_⟩
  · rw [decodeCmd_eq_enc_iff, commandWord_eq_append]
    rfl
  · rw [decodeCmd_eq_dec_iff, commandWord_eq_append]
    rfl
  · have hw := w.isLt
    rw [decodeCmd_eq_illegal_iff]
    simp only [ne_eq, extractLsb_eq_iff, BitVec.ofNat_eq_ofNat, BitVec.toNat_ofNat]
    omega

end Sys2Proof
end

section
/-! The round trips of the encoding (30_encoding.md sections 1 and 2): an access is decoded by the fields of its
descriptor, and `encode` writes those fields. -/

namespace Sys2Proof

/-! ## The fields of a descriptor -/

@[simp] theorem descriptor_offset (wr : Bool) (sz : BitVec 2) (off : Byte) :
    (descriptor wr sz off).extractLsb 7 0 = off :=
  BitVec.extractLsb'_append_eq_right

@[simp] theorem descriptor_size (wr : Bool) (sz : BitVec 2) (off : Byte) :
    (descriptor wr sz off).extractLsb 9 8 = sz :=
  (BitVec.extractLsb'_append_eq_of_le (w := 8) (by decide)).trans BitVec.extractLsb'_append_eq_right

@[simp] theorem descriptor_write (wr : Bool) (sz : BitVec 2) (off : Byte) :
    (descriptor wr sz off).extractLsb 10 10 = BitVec.ofBool wr :=
  (BitVec.extractLsb'_append_eq_of_le (w := 8) (by decide)).trans BitVec.extractLsb'_append_eq_left

@[simp] theorem descriptor_getLsbD_ten (wr : Bool) (sz : BitVec 2) (off : Byte) :
    (descriptor wr sz off).getLsbD 10 = wr :=
  (BitVec.getLsbD_append ..).trans ((BitVec.getLsbD_append ..).trans (BitVec.getLsbD_ofBool wr 0))

/-- The fields of a descriptor make it up (R85). -/
theorem descriptor_of_fields (d : BitVec 11) :
    descriptor (d.getLsbD 10) (d.extractLsb 9 8) (d.extractLsb 7 0) = d := by
  revert d
  decide +kernel

/-! ## Decoding by the fields -/

/-- The direction that the decoder reads from the write bit and the wdata is the encoded one. -/
theorem dir_of_descriptor (dir : Dir) (sz : BitVec 2) (off : Byte) :
    (if (descriptor dir.isWrite sz off).extractLsb 10 10 = 1 then Dir.write dir.wdata else .read) = dir := by
  cases dir <;> rw [descriptor_write] <;> rfl

/-- The size of an access decides first, then the alignment, then the offset (R85, R86). -/
theorem decodeAccess_descriptor (dir : Dir) (sz : BitVec 2) (off : Byte) :
    decodeAccess (descriptor dir.isWrite sz off) dir.wdata =
      if sz = 0 then .busErrSize1 dir off
      else if sz = 1 then .busErrSize2 dir off
      else if sz = 3 then .busErrSizeRsv dir off
      else if off.extractLsb 0 0 = 1 then .busErrOdd dir off
      else if off.extractLsb 1 0 = 2 then .busErrHalf dir off
      else decodeWordAccess dir off := by
  simp only [decodeAccess, descriptor_size, descriptor_offset, dir_of_descriptor]
  split
  · rfl
  · rfl
  · rfl
  · simp_all

theorem even_of_low_bits {off : Byte} (h : off.extractLsb 1 0 = 0 ∨ off.extractLsb 1 0 = 2) :
    off.extractLsb 0 0 ≠ 1 := by
  revert off
  decide +kernel

theorem aligned_of_not_odd_not_half {off : Byte} (hodd : off.extractLsb 0 0 ≠ 1) (hhalf : off.extractLsb 1 0 ≠ 2) :
    off.extractLsb 1 0 = 0 := by
  revert off
  decide +kernel

/-- A 32-bit access at an aligned offset is decoded by its offset alone. -/
theorem decodeAccess_aligned (dir : Dir) {off : Byte} (h : off.extractLsb 1 0 = 0) :
    decodeAccess (descriptor dir.isWrite 2 off) dir.wdata = decodeWordAccess dir off := by
  rw [decodeAccess_descriptor, if_neg (by decide), if_neg (by decide), if_neg (by decide),
    if_neg (even_of_low_bits (.inl h)), h, if_neg (by decide)]

/-! ## Decoding after encoding -/

/-- The bytes of an encoded access decode to what the access decodes to. -/
theorem decode_of_accessPacket {i : Instr} {dir : Dir} {sz : BitVec 2} {off : Byte}
    (he : encode i = some (accessPacket dir sz off)) (hd : decodeAccess (descriptor dir.isWrite sz off) dir.wdata = i) :
    ∃ p, encode i = some p ∧ decode p.bytes = .ok i :=
  ⟨_, he, by rw [accessPacket, decode_access, hd]⟩

/-- Settles O2: the encoding of each operation has the fields by which `decodeCmd` or `decodeAccess` finds it; being
well-formed gives an ILLEGAL its decoding and a BUSERR.ODD or BUSERR.HALF the low bits of its offset. -/
theorem decodeOfEncodeIsIdentity : Obligations.DecodeOfEncodeIsIdentity := by
  intro i hwf hbusy hcomplete
  cases i with
  | enc b => exact ⟨_, rfl, by rw [decode_command, decodeCommandWord, decodeCmd_eq_enc_iff.2 rfl]⟩
  | dec b => exact ⟨_, rfl, by rw [decode_command, decodeCommandWord, decodeCmd_eq_dec_iff.2 rfl]⟩
  | illegal w => exact ⟨_, rfl, by rw [decode_command, decodeCommandWord, eq_of_beq hwf]⟩
  | cmdWhileBusy w => exact absurd rfl (hbusy w)
  | complete => exact absurd rfl hcomplete
  | rdId | rdCtrl | rdStatus | rdCmd | rdKeylen | wrId | wrCtrl | wrStatus | wrCmd | wrKeylen =>
    exact decode_of_accessPacket rfl (decodeAccess_aligned _ rfl)
  | rdKey k | wrKey k | rdDin k | wrDin k | rdDout k | wrDout k =>
    fin_cases k <;> exact decode_of_accessPacket rfl (decodeAccess_aligned _ rfl)
  | rsvA dir => exact decode_of_accessPacket rfl (decodeAccess_aligned dir rfl)
  | rsvB dir n | rsvC dir n | rsvD dir n =>
    fin_cases n <;> exact decode_of_accessPacket rfl (decodeAccess_aligned dir rfl)
  | busErrSize1 dir off | busErrSize2 dir off | busErrSizeRsv dir off =>
    exact decode_of_accessPacket rfl (decodeAccess_descriptor dir _ off)
  | busErrOdd dir off =>
    have hodd : off.extractLsb 0 0 = 1 := eq_of_beq hwf
    exact decode_of_accessPacket rfl ((decodeAccess_descriptor dir 2 off).trans (if_pos hodd))
  | busErrHalf dir off =>
    have hhalf : off.extractLsb 1 0 = 2 := eq_of_beq hwf
    have heven : off.extractLsb 0 0 ≠ 1 := even_of_low_bits (.inr hhalf)
    exact decode_of_accessPacket rfl ((decodeAccess_descriptor dir 2 off).trans ((if_neg heven).trans (if_pos hhalf)))

/-- Settles O1, by running the decoder on each word. -/
theorem knownWordsDecode : Obligations.KnownWordsDecode :=
  ⟨rfl, rfl, rfl, rfl, rfl, rfl, rfl, rfl, rfl, rfl, rfl⟩

/-! ## Encoding after decoding -/

open Machine (regOffset registers)

/-- Every aligned offset is that of a register (10_state.md R20) or lies in one of the four reserved ranges of R86. -/
theorem aligned_offset_place {off : Byte} (h : off.extractLsb 1 0 = 0) :
    (∃ r ∈ registers, off = regOffset r) ∨ off = 0x14#8 ∨ (∃ n : Fin 2, off = 0x18#8 + BitVec.ofNat 8 (4 * n)) ∨
      (∃ n : Fin 8, off = 0x60#8 + BitVec.ofNat 8 (4 * n)) ∨ ∃ n : Fin 32, off = 0x80#8 + BitVec.ofNat 8 (4 * n) := by
  revert off
  decide +kernel

theorem encode_decodeWordAccess (dir : Dir) {off : Byte} (h : off.extractLsb 1 0 = 0) :
    WellFormed (decodeWordAccess dir off) = true ∧
      encode (decodeWordAccess dir off) = some (accessPacket dir 2 off) := by
  rcases aligned_offset_place h with ⟨r, -, rfl⟩ | rfl | ⟨n, rfl⟩ | ⟨n, rfl⟩ | ⟨n, rfl⟩
  · cases r with
    | key k | din k | dout k => cases dir <;> fin_cases k <;> exact ⟨rfl, rfl⟩
    | id | ctrl | status | cmd | keylen => cases dir <;> exact ⟨rfl, rfl⟩
  · exact ⟨rfl, rfl⟩
  · fin_cases n <;> exact ⟨rfl, rfl⟩
  · fin_cases n <;> exact ⟨rfl, rfl⟩
  · fin_cases n <;> exact ⟨rfl, rfl⟩

theorem encode_decodeAccess_descriptor (dir : Dir) (sz : BitVec 2) (off : Byte) :
    WellFormed (decodeAccess (descriptor dir.isWrite sz off) dir.wdata) = true ∧
      encode (decodeAccess (descriptor dir.isWrite sz off) dir.wdata) = some (accessPacket dir sz off) := by
  rw [decodeAccess_descriptor]
  split_ifs with h0 h1 h3 hodd hhalf
  · exact ⟨rfl, by rw [h0]; rfl⟩
  · exact ⟨rfl, by rw [h1]; rfl⟩
  · exact ⟨rfl, by rw [h3]; rfl⟩
  all_goals
    obtain rfl : sz = 2 := by
      revert sz
      decide
  · exact ⟨beq_of_eq hodd, rfl⟩
  · exact ⟨beq_of_eq hhalf, rfl⟩
  · exact encode_decodeWordAccess dir (aligned_of_not_odd_not_half hodd hhalf)

/-- The direction of an access, with the wdata that a write carries (R85, 20_memory.md R60). -/
def accessDir (d : BitVec 11) (v : Word) : Dir := if d.getLsbD 10 then .write v else .read

theorem accessDir_isWrite (d : BitVec 11) (v : Word) : (accessDir d v).isWrite = d.getLsbD 10 := by
  unfold accessDir
  cases d.getLsbD 10 <;> rfl

theorem accessDir_wdata (d : BitVec 11) (v : Word) : (accessDir d v).wdata = if d.getLsbD 10 then v else 0#32 := by
  unfold accessDir
  cases d.getLsbD 10 <;> rfl

theorem descriptor_accessDir (d : BitVec 11) (v : Word) :
    descriptor (accessDir d v).isWrite (d.extractLsb 9 8) (d.extractLsb 7 0) = d := by
  rw [accessDir_isWrite, descriptor_of_fields]

/-- The decoder does not look at the wdata of a read. -/
theorem decodeAccess_accessDir (d : BitVec 11) (v : Word) : decodeAccess d (accessDir d v).wdata = decodeAccess d v := by
  rw [accessDir_wdata]
  split_ifs with hwrite
  · rfl
  · have hread : d.extractLsb 10 10 ≠ 1 := by
      revert d
      decide +kernel
    simp only [decodeAccess, if_neg hread]

theorem encode_decodeAccess (d : BitVec 11) (v : Word) : WellFormed (decodeAccess d v) = true ∧
    encode (decodeAccess d v) = some (.access d (if d.getLsbD 10 then v else 0#32)) := by
  have h := encode_decodeAccess_descriptor (accessDir d v) (d.extractLsb 9 8) (d.extractLsb 7 0)
  rwa [accessPacket, descriptor_accessDir, decodeAccess_accessDir, accessDir_wdata] at h

theorem encode_decodeCommandWord (w : Word) :
    WellFormed (decodeCommandWord w) = true ∧ encode (decodeCommandWord w) = some (.command w) := by
  unfold decodeCommandWord
  cases h : decodeCmd w with
  | enc b => exact ⟨rfl, by rw [decodeCmd_eq_enc_iff.1 h]; rfl⟩
  | dec b => exact ⟨rfl, by rw [decodeCmd_eq_dec_iff.1 h]; rfl⟩
  | illegal => exact ⟨beq_of_eq h, rfl⟩

/-- Settles O3: an access is made up of its fields, which decoding hands to the operation, and a busy core takes the
word as it is. -/
theorem encodeOfDecodeIsThePacket : Obligations.EncodeOfDecodeIsThePacket := by
  refine ⟨encode_decodeAccess, fun w busy => ?_⟩
  cases busy with
  | true => exact ⟨rfl, rfl⟩
  | false => exact encode_decodeCommandWord w

end Sys2Proof
end

section
/-! The rows of R86's table: what an access decodes to encodes back into a row that its descriptor matches, and no
descriptor matches two rows. -/

namespace Sys2Proof

/-! ## A row that matches -/

open Laws.EncodesInItsRow in
/-- The laws of the single operations, put together. -/
theorem encode_in_row (i : Instr) : Statement i := by
  cases i with
  | enc b => exact enc b
  | dec b => exact dec b
  | illegal w => exact illegal w
  | cmdWhileBusy w => exact cmdWhileBusy w
  | complete => exact complete
  | rdId => exact rdId
  | wrId v => exact wrId v
  | rdCtrl => exact rdCtrl
  | wrCtrl v => exact wrCtrl v
  | rdStatus => exact rdStatus
  | wrStatus v => exact wrStatus v
  | rdCmd => exact rdCmd
  | wrCmd v => exact wrCmd v
  | rdKeylen => exact rdKeylen
  | wrKeylen v => exact wrKeylen v
  | rdKey k => exact rdKey k
  | wrKey k v => exact wrKey k v
  | rdDin k => exact rdDin k
  | wrDin k v => exact wrDin k v
  | rdDout k => exact rdDout k
  | wrDout k v => exact wrDout k v
  | rsvA dir => exact rsvA dir
  | rsvB dir n => exact rsvB dir n
  | rsvC dir n => exact rsvC dir n
  | rsvD dir n => exact rsvD dir n
  | busErrSize1 dir off => exact busErrSize1 dir off
  | busErrSize2 dir off => exact busErrSize2 dir off
  | busErrSizeRsv dir off => exact busErrSizeRsv dir off
  | busErrOdd dir off => exact busErrOdd dir off
  | busErrHalf dir off => exact busErrHalf dir off

theorem decodeAccess_row_matches (d : BitVec 11) (v : Word) :
    ∃ r, (decodeAccess d v).accessRow = some r ∧ r.matches d = true := by
  obtain ⟨hwf, henc⟩ := encode_decodeAccess d v
  exact encode_in_row _ hwf _ henc

/-! ## No second row -/

/-- The rows of R86's table. -/
def accessRows : List AccessRow :=
  [.rdId, .wrId, .rdCtrl, .wrCtrl, .rdStatus, .wrStatus, .rdCmd, .wrCmd, .rdKeylen, .wrKeylen, .rdKey, .wrKey, .rdDin,
    .wrDin, .rdDout, .wrDout, .rsvA, .rsvB, .rsvC, .rsvD, .busErrSize1, .busErrSize2, .busErrSizeRsv, .busErrOdd,
    .busErrHalf]

theorem mem_accessRows (r : AccessRow) : r ∈ accessRows := by
  cases r <;> decide

/-- Two different rows ask for different values of some bit that both of them fix. -/
theorem row_eq_of_common_bits {r r' : AccessRow} (h : r.pattern &&& r'.mask = r'.pattern &&& r.mask) : r = r' := by
  have hdistinct : ∀ x ∈ accessRows, ∀ y ∈ accessRows, x.pattern &&& y.mask = y.pattern &&& x.mask → x = y := by
    decide +kernel
  exact hdistinct r (mem_accessRows r) r' (mem_accessRows r') h

theorem row_unique {r r' : AccessRow} {d : BitVec 11} (h : r.matches d = true) (h' : r'.matches d = true) : r = r' := by
  apply row_eq_of_common_bits
  rw [← eq_of_beq h, ← eq_of_beq h', BitVec.and_assoc, BitVec.and_assoc, BitVec.and_comm r.mask]

theorem matches_iff_decodeAccess_row (d : BitVec 11) (v : Word) (r : AccessRow) :
    r.matches d = true ↔ (decodeAccess d v).accessRow = some r := by
  obtain ⟨r₀, hrow, hmatch⟩ := decodeAccess_row_matches d v
  rw [hrow, Option.some_inj]
  exact ⟨fun h => row_unique hmatch h, fun h => h ▸ hmatch⟩

/-! ## Register numbers -/

/-- An access that decodes to `i` is the one that `i` encodes, up to the wdata of a read. -/
theorem access_of_decode {d : BitVec 11} {v : Word} {i : Instr} {dir : Dir} {sz : BitVec 2} {off : Byte}
    (hi : decodeAccess d v = i) (he : encode i = some (accessPacket dir sz off)) :
    d = descriptor dir.isWrite sz off ∧ dir.wdata = if dir.isWrite then v else 0#32 := by
  obtain ⟨-, h⟩ := encode_decodeAccess d v
  rw [hi, he, accessPacket, Option.some_inj, Packet.access.injEq] at h
  obtain ⟨rfl, hwdata⟩ := h
  rw [descriptor_getLsbD_ten] at hwdata
  exact ⟨rfl, hwdata⟩

theorem key_number (wr : Bool) (k : Fin 8) :
    k.val = (descriptor wr 2 (0x20#8 + BitVec.ofNat 8 (4 * k))).toNat / 4 % 8 := by
  revert wr k
  decide

theorem din_number (wr : Bool) (k : Fin 4) :
    k.val = (descriptor wr 2 (0x40#8 + BitVec.ofNat 8 (4 * k))).toNat / 4 % 4 := by
  revert wr k
  decide

theorem dout_number (wr : Bool) (k : Fin 4) :
    k.val = (descriptor wr 2 (0x50#8 + BitVec.ofNat 8 (4 * k))).toNat / 4 % 4 := by
  revert wr k
  decide

/-- Settles O4: the row is the one that decoding finds, and the register number is read off the descriptor that the
decoded operation encodes. -/
theorem eachDescriptorMatchesItsOneRow : Obligations.EachDescriptorMatchesItsOneRow := by
  intro d v
  refine ⟨matches_iff_decodeAccess_row d v, fun k h => ?_, fun k w h => ?_, fun k h => ?_, fun k w h => ?_,
    fun k h => ?_, fun k w h => ?_⟩
  · obtain ⟨rfl, -⟩ := access_of_decode h rfl
    exact key_number _ k
  · obtain ⟨rfl, hw⟩ := access_of_decode (dir := .write w) h rfl
    exact ⟨key_number _ k, hw⟩
  · obtain ⟨rfl, -⟩ := access_of_decode h rfl
    exact din_number _ k
  · obtain ⟨rfl, hw⟩ := access_of_decode (dir := .write w) h rfl
    exact ⟨din_number _ k, hw⟩
  · obtain ⟨rfl, -⟩ := access_of_decode h rfl
    exact dout_number _ k
  · obtain ⟨rfl, hw⟩ := access_of_decode (dir := .write w) h rfl
    exact ⟨dout_number _ k, hw⟩

end Sys2Proof
end

section
/-! The pseudo-instructions of the bus-script (30_encoding.md R91) as accesses. -/

namespace Sys2Proof.Machine

theorem event_wr_key (turns : Nat) (k : Fin 8) (w : Word) :
    Stmt.event turns (.wr (.key k) w) = .access (BitVec.ofNat 11 (0x620 + 4 * k)) w := by
  have hdescriptor : ∀ k : Fin 8, descriptor true 2 (regOffset (.key k)) = BitVec.ofNat 11 (0x620 + 4 * k) := by decide
  exact congrArg (Event.access · w) (hdescriptor k)

theorem key_events (turns : Nat) {ws : List Word} (h : ws.length ≤ 8) :
    (List.zipWith (fun k w => Stmt.wr (.key k) w) (List.finRange 8) ws).map (Stmt.event turns) =
      ws.mapIdx (fun k w => .access (BitVec.ofNat 11 (0x620 + 4 * k)) w) := by
  apply List.ext_getElem
  · simp [h]
  · intro k _ _
    simp [event_wr_key]

/-- Settles O56: only `key` has a list to follow; the others are the statements of their expansion one by one. -/
theorem pseudoInstructionsExpand : Obligations.PseudoInstructionsExpand := by
  intro n d0 d1 d2 d3
  refine ⟨rfl, rfl, rfl, rfl, rfl, rfl, fun ws hws => ?_⟩
  rw [← key_events n hws, scriptEvents, List.flatMap_singleton]
  rfl

end Sys2Proof.Machine
end

section
/-! Byte strings and words (40_data_format.md): each word keeps its four bytes in their places, so the bytes of a string
are read back from its words (20_memory.md R62). -/

namespace Sys2Proof.Machine

/-- R11: byte `r` of `LE32(s, k)` is byte `4k + r` of the string. -/
theorem extractLsb'_le32 (s : List Byte) (k : Nat) {r : Nat} (hr : r < 4) :
    (le32 s k).extractLsb' (8 * r) 8 = s.getD (4 * k + r) 0#8 := by
  unfold le32
  match r, hr with
  | 0, _ => exact BitVec.extractLsb'_append_eq_right
  | 1, _ =>
    rw [BitVec.extractLsb'_append_eq_of_le (by decide)]
    exact BitVec.extractLsb'_append_eq_right
  | 2, _ =>
    rw [BitVec.extractLsb'_append_eq_of_le (by decide), BitVec.extractLsb'_append_eq_of_le (by decide)]
    exact BitVec.extractLsb'_append_eq_right
  | 3, _ =>
    rw [BitVec.extractLsb'_append_eq_of_le (by decide), BitVec.extractLsb'_append_eq_of_le (by decide)]
    exact BitVec.extractLsb'_append_eq_left

/-- R62: registers that hold word `n div 4` of a string hold byte `n` of it. -/
theorem byteOfWords_of_le32 {ws : List Word} {s : List Byte} {n : Nat} (h : ws.getD (n / 4) 0#32 = le32 s (n / 4)) :
    byteOfWords ws n = s.getD n 0#8 := by
  rw [byteOfWords, h, extractLsb'_le32 s _ (Nat.mod_lt n (by decide)), Nat.div_add_mod]

theorem getD_words_split (blk : Vector Byte 16) {k : Nat} (hk : k < 4) :
    (split blk).words.toList.getD k 0#32 = le32 blk.toList k := by
  match k, hk with
  | 0, _ | 1, _ | 2, _ | 3, _ => rfl

theorem getD_keyWords (key : List Byte) {k : Nat} (hk : k < 8) :
    (keyWords key).toList.getD k 0#32 = le32 key k := by
  simp [keyWords, hk]

theorem byteOfWords_split (blk : Vector Byte 16) (n : Fin 16) :
    byteOfWords (split blk).words.toList n.val = blk.get n := by
  rw [byteOfWords_of_le32 (getD_words_split blk (by omega))]
  simp [Vector.get]

theorem byteOfWords_keyWords (key : List Byte) {n : Nat} (hn : n < 32) :
    byteOfWords (keyWords key).toList n = key.getD n 0#8 :=
  byteOfWords_of_le32 (getD_keyWords key (by omega))

/-- `UNLE32` writes the bytes of each word in the places of R62. -/
theorem get_pack (x : Block) (n : Fin 16) : (pack x).get n = byteOfWords x.words.toList n.val := by
  fin_cases n <;> rfl

@[simp] theorem pack_split (blk : Vector Byte 16) : pack (split blk) = blk :=
  Vector.ext fun i hi =>
    calc (pack (split blk)).get ⟨i, hi⟩
      _ = byteOfWords (split blk).words.toList i := get_pack _ _
      _ = blk.get ⟨i, hi⟩ := byteOfWords_split blk ⟨i, hi⟩

@[simp] theorem split_pack (x : Block) : split (pack x) = x :=
  (Block.mk.injEq ..).mpr ⟨word_of_bytes x.a, word_of_bytes x.b, word_of_bytes x.c, word_of_bytes x.d⟩

/-- Settles O50: Pack writes the bytes that Split's words keep, and a word is made of its four bytes. -/
theorem packAndSplitAreInverse : Obligations.PackAndSplitAreInverse :=
  ⟨pack_split, split_pack, byteOfWords_split, fun key _ hkey hn => byteOfWords_keyWords key (hn.trans_le hkey)⟩

end Sys2Proof.Machine
end

section
/-! The key schedule (41_key_schedule.md): the initial S, one iteration of the mixing, and the loop from its start. -/

namespace Sys2Proof.Machine

/-! ## The initial S (41_key_schedule.md R121) -/

/-- Word `k` counted from any first word `x`, not from `P` only: the recursion starts the tail at `x + q`. -/
theorem getElem_arithWords (q : Word) (n : Nat) (x : Word) (k : Nat) (hk : k < (arithWords q n x).length) :
    (arithWords q n x)[k] = x + BitVec.ofNat 32 k * q := by
  induction n generalizing x k with
  | zero => exact absurd hk (Nat.not_lt_zero k)
  | succ n ih =>
    cases k with
    | zero => simp [arithWords]
    | succ k =>
      calc (arithWords q (n + 1) x)[k + 1]
        _ = x + q + BitVec.ofNat 32 k * q := ih (x + q) k _
        _ = x + BitVec.ofNat 32 (k + 1) * q := by
          rw [BitVec.ofNat_add, BitVec.add_mul, BitVec.one_mul, add_assoc, add_comm q]

/-- Settles O42, by induction on the words of the initial S. -/
theorem initialArrayIsArithmetic : Obligations.InitialArrayIsArithmetic :=
  fun p q k => getElem_arithWords q 44 p k.val _

/-! ## One iteration (41_key_schedule.md R122, R124, R125) -/

theorem mixStep_ka (c : Nat) (m : Mix) : (mixStep c m).ka = rotl (m.S.get m.i + m.ka + m.kb) 3 := rfl

/-- The new KB is computed with the new KA. -/
theorem mixStep_kb (c : Nat) (m : Mix) :
    (mixStep c m).kb =
      rotl (m.L.get m.j + (mixStep c m).ka + m.kb) ((mixStep c m).ka + m.kb).toNat := rfl

theorem mixStep_S_get (c : Nat) (m : Mix) (x : Fin 44) :
    (mixStep c m).S.get x = if x = m.i then (mixStep c m).ka else m.S.get x :=
  vector_get_set m.S m.i x _

theorem mixStep_L_get (c : Nat) (m : Mix) (x : Fin 8) :
    (mixStep c m).L.get x = if x = m.j then (mixStep c m).kb else m.L.get x :=
  vector_get_set m.L m.j x _

theorem mixStep_i_val (c : Nat) (m : Mix) : (mixStep c m).i.val = (m.i.val + 1) % 44 := by
  rw [mixStep_i, Fin.val_add]
  rfl

theorem mixStep_j_val {c : Nat} (h1 : 1 ≤ c) (h8 : c ≤ 8) (m : Mix) : (mixStep c m).j.val = (m.j.val + 1) % c :=
  nextJ_val h1 h8 m.j

/-- Settles O43 from the rules of one iteration: each write-back sets the one word at its index. -/
theorem mixingIterationWritesBack : Obligations.MixingIterationWritesBack :=
  fun c m h1 h8 =>
    ⟨mixStep_ka c m, mixStep_kb c m, mixStep_S_get c m, mixStep_L_get c m, mixStep_i_val c m, mixStep_j_val h1 h8 m⟩

/-! ## The loop (41_key_schedule.md R123, R124, R126) -/

theorem mixLoop_i_val (c n : Nat) (m : Mix) : (mixLoop c n m).i.val = (m.i.val + n) % 44 := by
  induction n generalizing m with
  | zero => exact (Nat.mod_eq_of_lt m.i.isLt).symm
  | succ n ih => rw [mixLoop_succ, ih, mixStep_i_val, Nat.mod_add_mod, Nat.add_right_comm, Nat.add_assoc]

/-- The index j counts mod c only once it is below c, where every iteration leaves it. -/
theorem mixLoop_j_val {c : Nat} (h1 : 1 ≤ c) (h8 : c ≤ 8) (n : Nat) {m : Mix} (hj : m.j.val < c) :
    (mixLoop c n m).j.val = (m.j.val + n) % c := by
  induction n generalizing m with
  | zero => exact (Nat.mod_eq_of_lt hj).symm
  | succ n ih =>
    rw [mixLoop_succ, ih (nextJ_lt h1 h8 m.j), mixStep_j_val h1 h8, Nat.mod_add_mod, Nat.add_right_comm,
      Nat.add_assoc]

/-- Settles O44: both indices start at 0, and a legal c gives the count 132. -/
theorem mixingIndicesAdvance : Obligations.MixingIndicesAdvance := by
  intro p q L c n h1 h8
  refine ⟨?_, ?_, ?_⟩
  · simpa [mixStart] using mixLoop_i_val c n (mixStart p q L)
  · simpa [mixStart] using mixLoop_j_val h1 h8 n (m := mixStart p q L) h1
  · rw [keySchedule, mixIterations_legal h8]

/-- Settles O45: the loops over the two arrays stay the same but for the words from the `c`-th on. -/
theorem scheduleReadsOnlyItsKeyWords : Obligations.ScheduleReadsOnlyItsKeyWords :=
  fun p q _ _ _ h1 h8 hL => keySchedule_congr p q h1 h8 hL

end Sys2Proof.Machine
end

section
/-! Encryption (42_encrypt.md): the rounds as a fold over their numbers, and the rule of one round in the library's
rotations. -/

namespace Sys2Proof.Machine

theorem quad_eq_rotateLeft (x : Word) : quad x = (x * (2#32 * x + 1#32)).rotateLeft 5 := rotl_eq_rotateLeft _ 5

/-- R142 and R143: the two new words move to the places D and B, the two kept words to A and C. -/
theorem encRound_eq_rotateLeft (S : Vector Word 44) (i : Nat) (x : Block) :
    encRound S i x =
      ⟨x.b, (x.c ^^^ quad x.d).rotateLeft (quad x.b).toNat + roundKey S (2 * i + 3), x.d,
        (x.a ^^^ quad x.b).rotateLeft (quad x.d).toNat + roundKey S (2 * i + 2)⟩ := by
  simp only [encRound, rotl_eq_rotateLeft]

theorem encRounds_eq_foldl (S : Vector Word 44) (n i : Nat) (x : Block) :
    encRounds S n i x = (List.range' i n).foldl (fun y r => encRound S r y) x := by
  induction n generalizing i x with
  | zero => rfl
  | succ n ih => rw [encRounds_succ, ih, List.range'_succ, List.foldl_cons]

theorem encrypt_eq_foldl (S : Vector Word 44) (x : Block) :
    encrypt S x = postWhiten S ((List.range 20).foldl (fun y r => encRound S r y) (preWhiten S x)) := by
  rw [encrypt, encRounds_eq_foldl, List.range_eq_range', Config.rounds]

/-- Settles O46: the rule's round is the model's, so its fold is the model's run of rounds; the four whitening words are
entries of the array, and the byte operation is defined as it is stated. -/
theorem encryptFollowsItsRule : Obligations.EncryptFollowsItsRule := by
  refine ⟨?_, fun _ _ _ _ => rfl⟩
  intro S a b c d f round
  have hround : (fun y r => encRound S r y) = round := by
    funext y r
    simp only [round, f, encRound_eq_rotateLeft, quad_eq_rotateLeft, roundKey]
  intro z
  rw [encrypt_eq_foldl, hround]
  simp only [preWhiten, postWhiten, z, ← roundKey_get]
  rfl

end Sys2Proof.Machine
end

section
/-! The core as the byte operations (44_commands.md R183 to R185): an accepted command and its completion leave in DOUT
what the snapshot gives, and the registers hold the words of the byte strings. -/

namespace Sys2Proof.Machine

/-- R185 right after R182: the completion of the command just issued writes the result of the snapshot just taken. -/
theorem completeStep_of_accepted {d : Cmd} {s : State} (hidle : s.busy = false) (hcheck : checkCmd d s = .none) :
    completeStep (respondWritten (command d s)) =
      finish (snapResult (takeSnapshot (Cmd.op d) s)) (respondWritten (command d s)) := by
  rw [command_accepted hidle hcheck, completeStep_busy rfl]
  rfl

/-- An idle core whose registers hold a key of legal length and a block as their words (20_memory.md R62); the key
registers past the key are arbitrary. -/
structure State.HoldsBytes (s : State) (key : List Byte) (blk : Vector Byte 16) : Prop where
  idle : s.busy = false
  legal : key.length ∈ [4, 8, 12, 16, 20, 24, 28, 32]
  keylen : s.keylen.toNat = key.length
  keyRegs : ∀ j : Fin 8, j.val < key.length / 4 → s.key.get j = le32 key j.val
  dinRegs : ∀ k : Fin 4, s.din.get k = le32 blk.toList k.val

theorem get_keyWords (key : List Byte) (j : Fin 8) : (keyWords key).get j = le32 key j.val := Vector.getElem_ofFn j.isLt

section
variable {s : State} {key : List Byte} {blk : Vector Byte 16}

theorem State.HoldsBytes.keyLen_legal (h : s.HoldsBytes key blk) :
    keyLenLegal Config.keyLenSet (keyBytes s) = true := by
  rw [keyLenLegal_iff, keyBytes, h.keylen]
  exact h.legal

/-- R87: the word count that the core takes from KEYLEN is that of the key. -/
theorem State.HoldsBytes.keyWordCount_toNat (h : s.HoldsBytes key blk) : (keyWordCount s).toNat = key.length / 4 := by
  have hlen := h.legal
  simp only [List.mem_cons, List.not_mem_nil, or_false] at hlen
  rw [keyWordCount, keyBytes, h.keylen, BitVec.toNat_ofNat]
  omega

theorem State.HoldsBytes.ofWords_din (h : s.HoldsBytes key blk) : Block.ofWords s.din = split blk := by
  simp only [Block.ofWords, split, h.dinRegs]
  rfl

/-- The schedule reads no key register past the key, so the registers give the key's own schedule (R120, R126). -/
theorem State.HoldsBytes.keySchedule_eq (h : s.HoldsBytes key blk) (p q : Word) :
    keySchedule p q s.key (keyWordCount s).toNat = keyScheduleBytes p q key := by
  obtain ⟨h1, h8⟩ := keyWordCount_legal h.keyLen_legal
  rw [h.keyWordCount_toNat] at h1 h8 ⊢
  refine keySchedule_congr p q h1 h8 fun j hj => ?_
  rw [h.keyRegs j hj, get_keyWords]

theorem State.HoldsBytes.snapResult_eq (h : s.HoldsBytes key blk) (op : Op) :
    snapResult (takeSnapshot op s) = crypt op (keyScheduleBytes Config.rc6P Config.rc6Q key) (split blk) := by
  simp only [snapResult, snapSchedule, takeSnapshot, h.keySchedule_eq, h.ofWords_din]

/-- A row that names an accepted command, and then its completion, for both operations. -/
theorem State.HoldsBytes.crypt_in_dout (h : s.HoldsBytes key blk) {i : Instr} {d : Cmd}
    (hexec : exec i s = .next (respondWritten (command d s))) (hcheck : checkCmd d s = .none) :
    ∃ t u, exec i s = .next t ∧ exec .complete t = .next u ∧ u.busy = false ∧ u.done = true ∧
      pack (Block.ofWords u.dout) =
        pack (crypt (Cmd.op d) (keyScheduleBytes Config.rc6P Config.rc6Q key) (split blk)) := by
  refine ⟨_, _, hexec, rfl, ?_⟩
  rw [completeStep_of_accepted h.idle hcheck, finish_dout, ofWords_words, h.snapResult_eq]
  exact ⟨rfl, rfl, rfl⟩

end

/-- Settles O52: ENC and DEC with BLEN 16 pass their checks, and `crypt` of the operation is the byte operation before
Pack. -/
theorem coreMeetsTheByteContract : Obligations.CoreMeetsTheByteContract := by
  intro s key blk hidle hlegal hkeylen hkey hdin
  have h : s.HoldsBytes key blk := ⟨hidle, hlegal, hkeylen, hkey, hdin⟩
  have henc : checkCmd (.enc 16#8) s = .none := by simp [checkCmd_enc, h.keyLen_legal, Config.blockBytes]
  have hdec : checkCmd (.dec 16#8) s = .none := by simp [checkCmd_dec, h.keyLen_legal, Config.blockBytes]
  constructor
  · simpa only [Cmd.op, crypt, encryptBytes, Config.rc6P, Config.rc6Q] using h.crypt_in_dout (i := .enc 16#8) rfl henc
  · simpa only [Cmd.op, crypt, decryptBytes, Config.rc6P, Config.rc6Q] using h.crypt_in_dout (i := .dec 16#8) rfl hdec

end Sys2Proof.Machine
end

section
/-! Decryption (43_decrypt.md): the inverse rounds as a fold over their numbers, and the inverse laws of R164, each step
of decryption undoing its step of encryption and the other way round. -/

namespace Sys2Proof.Machine

/-! ## The rule of decryption -/

/-- R161: the register rotation is undone first, so the round's A and C come from the places D and B. -/
theorem decRound_eq_rotateRight (S : Vector Word 44) (i : Nat) (x : Block) :
    decRound S i x =
      ⟨(x.d - roundKey S (2 * i + 2)).rotateRight (quad x.c).toNat ^^^ quad x.a, x.a,
        (x.b - roundKey S (2 * i + 3)).rotateRight (quad x.a).toNat ^^^ quad x.c, x.c⟩ := by
  simp only [decRound, rotr_eq_rotateRight]

theorem decRounds_eq_foldl (S : Vector Word 44) (n : Nat) (x : Block) :
    decRounds S n x = (List.range n).reverse.foldl (fun y r => decRound S r y) x := by
  induction n generalizing x with
  | zero => rfl
  | succ n ih => rw [decRounds_succ, ih, List.range_succ, List.reverse_concat, List.foldl_cons]

theorem decrypt_eq_foldl (S : Vector Word 44) (x : Block) :
    decrypt S x = unPreWhiten S ((List.range 20).reverse.foldl (fun y r => decRound S r y) (unPostWhiten S x)) := by
  rw [decrypt, decRounds_eq_foldl, Config.rounds]

/-- Settles O47: the rule's inverse round is the model's, so its fold is the model's run of inverse rounds; the four
whitening words are entries of the array, and the byte operation is defined as it is stated. -/
theorem decryptFollowsItsRule : Obligations.DecryptFollowsItsRule := by
  refine ⟨?_, fun _ _ _ _ => rfl⟩
  intro S a b c d f round
  have hround : (fun y r => decRound S r y) = round := by
    funext y r
    simp only [round, f, decRound_eq_rotateRight, quad_eq_rotateLeft, roundKey]
  intro z
  rw [decrypt_eq_foldl, hround]
  simp only [unPreWhiten, unPostWhiten, z, ← roundKey_get]
  rfl

/-! ## The inverse laws -/

/-- The other direction of `rotr_rotl`: bit `i` is the one that the rotation left brings from place `i - n`. -/
@[simp] theorem rotl_rotr (x : Word) (n : Nat) : rotl (rotr x n) n = x :=
  BitVec.eq_of_getLsbD_eq fun i hi => by
    have hsource : (i + (32 - n % 32)) % 32 < 32 := Nat.mod_lt _ (by decide)
    have hback : ((i + (32 - n % 32)) % 32 + n) % 32 = i := by omega
    have hl := getLsbD_rotl (rotr x n) n hsource
    rwa [getLsbD_rotr x n hsource, hback] at hl

@[simp] theorem unPreWhiten_preWhiten (S : Vector Word 44) (x : Block) : unPreWhiten S (preWhiten S x) = x := by
  simp [unPreWhiten, preWhiten]

@[simp] theorem preWhiten_unPreWhiten (S : Vector Word 44) (x : Block) : preWhiten S (unPreWhiten S x) = x := by
  simp [unPreWhiten, preWhiten]

@[simp] theorem unPostWhiten_postWhiten (S : Vector Word 44) (x : Block) : unPostWhiten S (postWhiten S x) = x := by
  simp [unPostWhiten, postWhiten]

@[simp] theorem postWhiten_unPostWhiten (S : Vector Word 44) (x : Block) : postWhiten S (unPostWhiten S x) = x := by
  simp [unPostWhiten, postWhiten]

/-- A round keeps B and D, so its inverse recomputes the same t and u, and each sum, rotation and xor cancels
(`rotr_rotl`). -/
@[simp] theorem decRound_encRound (S : Vector Word 44) (i : Nat) (x : Block) : decRound S i (encRound S i x) = x := by
  simp [decRound, encRound]

@[simp] theorem encRound_decRound (S : Vector Word 44) (i : Nat) (x : Block) : encRound S i (decRound S i x) = x := by
  simp [decRound, encRound]

/-- The last round of a run is the first to be undone. -/
@[simp] theorem decRounds_encRounds (S : Vector Word 44) (n : Nat) (x : Block) :
    decRounds S n (encRounds S n 0 x) = x := by
  induction n with
  | zero => rfl
  | succ n ih => rw [encRounds_last, decRounds_succ, Nat.zero_add, decRound_encRound, ih]

@[simp] theorem encRounds_decRounds (S : Vector Word 44) (n : Nat) (x : Block) :
    encRounds S n 0 (decRounds S n x) = x := by
  induction n generalizing x with
  | zero => rfl
  | succ n ih => rw [decRounds_succ, encRounds_last, ih, Nat.zero_add, encRound_decRound]

@[simp] theorem decrypt_encrypt (S : Vector Word 44) (x : Block) : decrypt S (encrypt S x) = x := by
  rw [decrypt, encrypt, unPostWhiten_postWhiten, decRounds_encRounds, unPreWhiten_preWhiten]

@[simp] theorem encrypt_decrypt (S : Vector Word 44) (x : Block) : encrypt S (decrypt S x) = x := by
  rw [encrypt, decrypt, preWhiten_unPreWhiten, encRounds_decRounds, postWhiten_unPostWhiten]

/-- Settles O48: every step of the one function is undone by the matching step of the other, in the opposite order. -/
theorem decryptInvertsEncrypt : Obligations.DecryptInvertsEncrypt :=
  fun S x => ⟨decrypt_encrypt S x, encrypt_decrypt S x⟩

/-- Settles O51: Split undoes the inner Pack, the inverse law of the blocks applies under the one key schedule, and Pack
undoes Split. -/
theorem bytesRoundTrip : Obligations.BytesRoundTrip := by
  intro p q key blk
  constructor
  · rw [decryptBytes, encryptBytes, split_pack, decrypt_encrypt, pack_split]
  · rw [encryptBytes, decryptBytes, split_pack, encrypt_decrypt, pack_split]

end Sys2Proof.Machine
end

section
/-! Completion (44_commands.md R185) and the clocks before it (70_reset_and_hazards.md R253): every clock but the last
leaves the pending result of the running command as it was, so completion writes the same block whenever it is taken. -/

namespace Sys2Proof.Machine

/-! ## What a clock leaves of the pending result -/

/-- How many clocks of the nominal sequencer, the present one counted, the running command still needs (R253). -/
def Internal.clocksLeft (n : Internal) : Nat :=
  match n.phase with
  | .idle => 0
  | .ksInit => 155
  | .ksMix => 22 + (132 - n.k.val)
  | .pre => 22
  | .round => 1 + (20 - n.r.val)
  | .post => 1

/-- The whole operation is the whitening, the rounds from cycle 0 on, and the whitening after them. -/
theorem crypt_eq_phases (op : Op) (S : Vector Word 44) (x : Block) :
    crypt op S x = whitenOut op S (roundsFrom op S 0 (whitenIn op S x)) := by
  cases op <;> rfl

theorem roundsFrom_step (op : Op) (S : Vector Word 44) {r : Nat} (h : r < 20) (x : Block) :
    roundsFrom op S r x = roundsFrom op S (r + 1) (roundAt op S r x) := by
  have hleft : 20 - r = (20 - (r + 1)) + 1 := by omega
  cases op with
  | enc => simp only [roundsFrom, roundAt, Config.rounds, hleft, encRounds_succ]
  | dec =>
    have hnumber : 20 - 1 - r = 20 - (r + 1) := by omega
    simp only [roundsFrom, roundAt, Config.rounds, hleft, decRounds_succ, hnumber]

theorem roundsFrom_end (op : Op) (S : Vector Word 44) (x : Block) : roundsFrom op S 20 x = x := by
  cases op <;> rfl

/-- KS_INIT starts the loop whose result the key schedule is. -/
theorem cycleKsInit_pending {n : Internal} (h : n.phase = .ksInit) :
    pendingResult (cycleKsInit n) = pendingResult n ∧ (cycleKsInit n).clocksLeft + 1 = n.clocksLeft := by
  have hcount : mixIterations n.snap.c.toNat = 132 := iterations_eq n
  constructor
  · simp [pendingResult, h, snapResult, snapSchedule, keySchedule, hcount]
  · simp [Internal.clocksLeft, h]

theorem cycleKsMix_pending {n : Internal} (h : n.phase = .ksMix) :
    pendingResult (cycleKsMix n) = pendingResult n ∧ (cycleKsMix n).clocksLeft + 1 = n.clocksLeft := by
  rcases cycleKsMix_cases n with ⟨hmore, hk, hphase⟩ | ⟨hlast, -, hphase⟩
  · have hleft : 132 - n.k.val = (132 - (n.k.val + 1)) + 1 := by omega
    constructor
    · simp [pendingResult, h, hphase, hk, hleft, mixLoop_succ]
    · simp only [Internal.clocksLeft, h, hphase, hk]
      omega
  · constructor
    · simp [pendingResult, h, hphase, hlast, mixLoop_succ, ← mix_S]
    · simp only [Internal.clocksLeft, h, hphase, hlast]

theorem cyclePre_pending {n : Internal} (h : n.phase = .pre) :
    pendingResult (cyclePre n) = pendingResult n ∧ (cyclePre n).clocksLeft + 1 = n.clocksLeft := by
  constructor
  · simp [pendingResult, h, crypt_eq_phases]
  · simp [Internal.clocksLeft, h]

theorem cycleRound_pending {n : Internal} (h : n.phase = .round) :
    pendingResult (cycleRound n) = pendingResult n ∧ (cycleRound n).clocksLeft + 1 = n.clocksLeft := by
  rcases cycleRound_cases n with ⟨hmore, hr, hphase⟩ | ⟨hlast, -, hphase⟩
  · constructor
    · simp [pendingResult, h, hphase, hr, roundsFrom_step _ _ n.r.isLt]
    · simp only [Internal.clocksLeft, h, hphase, hr]
      omega
  · have hend : roundsFrom n.snap.op n.S 19 n.w = roundAt n.snap.op n.S 19 n.w :=
      (roundsFrom_step _ _ (by decide) _).trans (roundsFrom_end _ _ _)
    constructor
    · simp [pendingResult, h, hphase, hlast, hend]
    · simp only [Internal.clocksLeft, h, hphase, hlast]

/-- A clock that is not the last changes internal words only, and what it computes is what the pending result still
needed. -/
theorem cycleStep_pending {s : State} (h : 1 < s.int.clocksLeft) :
    ∃ n, cycleStep s = { s with int := n } ∧ pendingResult n = pendingResult s.int ∧
      n.clocksLeft + 1 = s.int.clocksLeft := by
  cases hphase : s.int.phase with
  | idle | post => simp [Internal.clocksLeft, hphase] at h
  | ksInit => exact ⟨_, cycleStep_ksInit hphase, cycleKsInit_pending hphase⟩
  | ksMix => exact ⟨_, cycleStep_ksMix hphase, cycleKsMix_pending hphase⟩
  | pre => exact ⟨_, cycleStep_pre hphase, cyclePre_pending hphase⟩
  | round => exact ⟨_, cycleStep_round hphase, cycleRound_pending hphase⟩

theorem cycles_succ (n : Nat) (s : State) : cycles (n + 1) s = cycles n (cycleStep s) := rfl

theorem cycles_pending (n : Nat) {s : State} (h : n < s.int.clocksLeft) :
    ∃ m, cycles n s = { s with int := m } ∧ pendingResult m = pendingResult s.int ∧
      m.clocksLeft + n = s.int.clocksLeft := by
  induction n generalizing s with
  | zero => exact ⟨s.int, rfl, rfl, rfl⟩
  | succ n ih =>
    obtain ⟨m, hm, hresult, hleft⟩ := cycleStep_pending (s := s) (by omega)
    obtain ⟨m', hm', hresult', hleft'⟩ := ih (s := { s with int := m }) (by simp only; omega)
    refine ⟨m', ?_, hresult'.trans hresult, ?_⟩
    · rw [cycles_succ, hm, hm']
    · simp only at hleft'
      omega

/-! ## Completion -/

/-- R185's result, with the operation and the constants of R5 written out. -/
theorem snapResult_eq_ite (sn : Snapshot) :
    snapResult sn =
      let S := keySchedule 0xB7E15163#32 0x9E3779B9#32 sn.L sn.c.toNat
      let x : Block := ⟨sn.blk.get 0, sn.blk.get 1, sn.blk.get 2, sn.blk.get 3⟩
      if sn.op = .enc then encrypt S x else decrypt S x := by
  rw [snapResult]
  cases sn.op <;> rfl

theorem pendingResult_ksInit {n : Internal} (h : n.phase = .ksInit) : pendingResult n = snapResult n.snap := by
  simp only [pendingResult, h]

theorem exec_complete_busy {s : State} (h : s.busy = true) :
    exec .complete s = .next (finish (pendingResult s.int) s) := congrArg _ (completeStep_busy h)

/-- Settles O35, which is R185's condition. -/
theorem idleSequencerChangesNothing : Obligations.IdleSequencerChangesNothing :=
  fun _ h => congrArg _ (completeStep_idle h)

/-- Settles O33: in KS_INIT the pending result is that of the snapshot. -/
theorem completionWritesTheResult : Obligations.CompletionWritesTheResult := by
  intro s hbusy hphase S x y
  have hresult : pendingResult s.int = y := (pendingResult_ksInit hphase).trans (snapResult_eq_ite _)
  exact ⟨finish y s, hresult ▸ exec_complete_busy hbusy, rfl, rfl⟩

/-- Settles O34: fewer than 155 clocks change internal words only and leave the pending result, which in KS_INIT is that
of the snapshot; a running command of the invariant has ERR and ERRCODE 0. -/
theorem completionAtAnyPointWritesTheSnapshotsResult : Obligations.CompletionAtAnyPointWritesTheSnapshotsResult := by
  intro s n hinv hbusy hphase hn S x y
  have hleft : s.int.clocksLeft = 155 := by simp only [Internal.clocksLeft, hphase]
  obtain ⟨m, hm, hpending, -⟩ := cycles_pending n (hleft ▸ hn)
  have hresult : pendingResult m = y :=
    hpending.trans ((pendingResult_ksInit hphase).trans (snapResult_eq_ite _))
  have herr := (hinv.busyClean hbusy).2
  refine ⟨finish y { s with int := m }, ?_, rfl, rfl, herr, hinv.errcodeIff.2 herr, ?_⟩
  · rw [hm, ← hresult]
    exact exec_complete_busy hbusy
  · simp [irq]

end Sys2Proof.Machine
end

section
/-! CMD writes (44_commands.md R180 to R184, R187, R188): what the bits of the word and KEYLEN decide, what an accepted
command starts, and ENC and DEC one after the other. -/

namespace Sys2Proof.Machine

/-! ## The row of a CMD write -/

/-- Settles O8: while busy the row is CMD_WHILE_BUSY, while idle that of the word, and both are the CMD write of it. -/
theorem commandWriteRunsItsRow : Obligations.CommandWriteRunsItsRow := by
  intro s w
  have hbusyRow : exec (.cmdWhileBusy w) s = exec (.wrCmd w) s := exec_cmdWhileBusy_eq w s
  have hwordRow := exec_decodeCommandWord w s
  refine ⟨?_, hbusyRow, hwordRow⟩
  cases hbusy : s.busy with
  | true => exact hbusyRow.symm
  | false => exact hwordRow.symm

/-- Settles O29: a command of a busy core, whatever the word decodes to, is the overrun. -/
theorem commandWriteWhileBusyIsDropped : Obligations.CommandWriteWhileBusyIsDropped := by
  intro s w hbusy
  rw [exec_cmdWhileBusy_eq, exec_wrCmd_eq, command_busy _ hbusy]
  exact ⟨rfl, rfl⟩

/-! ## Accepted commands -/

/-- R181: with BLEN 16 and a legal key length neither operation fails a check. -/
theorem checkCmd_accepted {s : State} (h : s.keylen.toNat ∈ [4, 8, 12, 16, 20, 24, 28, 32]) :
    checkCmd (.enc 16#8) s = .none ∧ checkCmd (.dec 16#8) s = .none := by
  have hlegal : keyLenLegal Config.keyLenSet (keyBytes s) = true := (keyLenLegal_iff _ _).2 h
  simp [checkCmd_enc, checkCmd_dec, Config.blockBytes, hlegal]

/-- Settles O26: ENC and DEC are issued, and the two words decode to them. -/
theorem acceptedCommandTakesTheSnapshot : Obligations.AcceptedCommandTakesTheSnapshot := by
  intro s hidle hlen started
  obtain ⟨henc, hdec⟩ := checkCmd_accepted hlen
  have hencStarts : respondWritten (command (.enc 16#8) s) = started .enc := by
    rw [command_accepted hidle henc]
    rfl
  have hdecStarts : respondWritten (command (.dec 16#8) s) = started .dec := by
    rw [command_accepted hidle hdec]
    rfl
  exact ⟨congrArg _ hencStarts, congrArg _ hdecStarts, congrArg _ hencStarts, congrArg _ hdecStarts⟩

/-- What an accepted command and its completion leave (R182, R185). -/
theorem completeStep_of_accepted_outcome {d : Cmd} {s u : State} (hidle : s.busy = false)
    (hcheck : checkCmd d s = .none) (hu : completeStep (respondWritten (command d s)) = u) :
    u.busy = false ∧ u.done = true ∧ u.err = false ∧
      u.dout = (crypt (Cmd.op d) (keySchedule Config.rc6P Config.rc6Q s.key (keyWordCount s).toNat)
        (Block.ofWords s.din)).words := by
  rw [← hu, completeStep_of_accepted hidle hcheck, command_accepted hidle hcheck]
  exact ⟨rfl, rfl, rfl, rfl⟩

/-- Settles O49: neither the ENC nor its completion changes KEY or KEYLEN, so the DEC runs under the same key schedule
and undoes the encryption (43_decrypt.md R164). -/
theorem encThenDecRestoresTheBlock : Obligations.EncThenDecRestoresTheBlock := by
  intro s hidle hlen
  obtain ⟨s2, hs2⟩ : ∃ s2, completeStep (respondWritten (command (.enc 16#8) s)) = s2 := ⟨_, rfl⟩
  obtain ⟨hidle2, -, -, hcipher⟩ := completeStep_of_accepted_outcome hidle (checkCmd_accepted hlen).1 hs2
  have hkey : s2.key = s.key := by simp [← hs2]
  have hkeylen : s2.keylen = s.keylen := by simp [← hs2]
  obtain ⟨-, hdone, herr, hplain⟩ := completeStep_of_accepted_outcome (s := { s2 with din := s2.dout }) hidle2
    (checkCmd_accepted (hkeylen ▸ hlen)).2 rfl
  refine ⟨_, s2, _, _, rfl, congrArg _ hs2, rfl, rfl, ?_, hdone, herr⟩
  rw [hplain]
  simp [hkey, hkeylen, hcipher, keyWordCount, keyBytes, Cmd.op, crypt]

/-! ## A CMD write by the bits of its word -/

/-- The three checks in their order (R181), by the bits of the word. -/
theorem checkCmd_decodeCmd (v : Word) (s : State) :
    checkCmd (decodeCmd v) s =
      if v.toNat / 65536 ≠ 0 ∨ v.toNat / 16 % 16 ≠ 0 ∨ (v.toNat % 16 ≠ 1 ∧ v.toNat % 16 ≠ 2) then .illegalCmd
      else if v.toNat / 256 % 256 ≠ 16 then .blockSize
      else if s.keylen.toNat ∉ [4, 8, 12, 16, 20, 24, 28, 32] then .keySize
      else .none := by
  have hlegal : keyLenLegal Config.keyLenSet (keyBytes s) = true ↔
      s.keylen.toNat ∈ [4, 8, 12, 16, 20, 24, 28, 32] := keyLenLegal_iff _ _
  obtain ⟨-, -, hillegal⟩ := commandWordsClassified v
  simp only [← hillegal]
  cases hd : decodeCmd v with
  | illegal => rfl
  | enc b | dec b =>
    rw [← decodeCmd_blen (b := b) (by simp [hd])]
    simp only [checkCmd, hlegal, Config.blockBytes, ite_not, reduceCtorEq, if_false]

theorem commandWord_op (op : BitVec 4) (b : Byte) : (commandWord op b).toNat % 16 = op.toNat := by
  have := op.isLt
  rw [commandWord_toNat]
  omega

/-- OP of a word that is ENC or DEC (30_encoding.md R80). -/
theorem op_decodeCmd {v : Word} (h : decodeCmd v ≠ .illegal) :
    Cmd.op (decodeCmd v) = if v.toNat % 16 = 1 then .enc else .dec := by
  cases hd : decodeCmd v with
  | illegal => exact absurd hd h
  | enc b => rw [decodeCmd_eq_enc_iff.1 hd, commandWord_op]; rfl
  | dec b => rw [decodeCmd_eq_dec_iff.1 hd, commandWord_op]; rfl

/-- A CMD write that fails a check only records the code (R180, R181). -/
theorem exec_wrCmd_failed {v : Word} {s : State} {code : ErrCode} (hidle : s.busy = false)
    (hcheck : checkCmd (decodeCmd v) s = code) (hcode : code ≠ .none) :
    ∃ t, exec (.wrCmd v) s = .next t ∧ t.done = false ∧ t.cmdovr = s.cmdovr ∧ t.dout = s.dout ∧
      t.errcode = code ∧ t.err = true ∧ t.busy = false ∧ t.int = s.int := by
  rw [exec_wrCmd_eq, command_failed hidle (hcheck ▸ hcode), hcheck]
  exact ⟨_, rfl, rfl, rfl, rfl, rfl, rfl, hidle, rfl⟩

/-- A CMD write that passes the checks issues the operation of its word (R182). -/
theorem exec_wrCmd_accepted {v : Word} {s : State} (hidle : s.busy = false)
    (hcheck : checkCmd (decodeCmd v) s = .none) :
    ∃ t, exec (.wrCmd v) s = .next t ∧ t.done = false ∧ t.cmdovr = s.cmdovr ∧ t.dout = s.dout ∧
      t.errcode = .none ∧ t.err = false ∧ t.busy = true ∧ t.int.phase = .ksInit ∧
      t.int.snap.op = if v.toNat % 16 = 1 then .enc else .dec := by
  rw [exec_wrCmd_eq, command_accepted hidle hcheck]
  exact ⟨_, rfl, rfl, rfl, rfl, rfl, rfl, rfl, rfl, op_decodeCmd (checkCmd_none hcheck).1⟩

/-- Settles O28: the chain of conditions is that of the checks, and the code that they give decides between the two
outcomes of an idle core. -/
theorem commandWriteToAnIdleCore : Obligations.CommandWriteToAnIdleCore := by
  intro s v hidle
  have hcheck := checkCmd_decodeCmd v s
  have haccepted := exec_wrCmd_accepted (v := v) hidle
  generalize (if v.toNat % 16 = 1 then Op.enc else Op.dec) = op at haccepted ⊢
  split_ifs at hcheck ⊢ with hillegal hblock hkey
  · exact exec_wrCmd_failed hidle hcheck nofun
  · exact exec_wrCmd_failed hidle hcheck nofun
  · exact haccepted hcheck
  · exact exec_wrCmd_failed hidle hcheck nofun

end Sys2Proof.Machine
end

section
/-! The register rows, the reserved offsets and the illegal accesses (44_commands.md R189 to R205): which descriptors
they are, and what they answer and change. -/

namespace Sys2Proof.Machine

/-! ## The descriptors of the numbered registers and offsets -/

/-- An access is decoded with its wdata zero, and the wdata put into the operation afterwards. -/
theorem decodeAccess_of_zero_wdata {d : BitVec 11} {i : Instr} (h : decodeAccess d 0#32 = i) (v : Word) :
    decodeAccess d v = i.setWdata v := h ▸ decodeAccess_wdata d v

theorem decodeAccess_rdKey (k : Fin 8) (v : Word) : decodeAccess (BitVec.ofNat 11 (0x220 + 4 * k.val)) v = .rdKey k :=
  decodeAccess_of_zero_wdata (i := .rdKey k) (by revert k; decide) v

theorem decodeAccess_rdDin (k : Fin 4) (v : Word) : decodeAccess (BitVec.ofNat 11 (0x240 + 4 * k.val)) v = .rdDin k :=
  decodeAccess_of_zero_wdata (i := .rdDin k) (by revert k; decide) v

theorem decodeAccess_rdDout (k : Fin 4) (v : Word) : decodeAccess (BitVec.ofNat 11 (0x250 + 4 * k.val)) v = .rdDout k :=
  decodeAccess_of_zero_wdata (i := .rdDout k) (by revert k; decide) v

theorem decodeAccess_wrKey (k : Fin 8) (v : Word) : decodeAccess (BitVec.ofNat 11 (0x620 + 4 * k.val)) v = .wrKey k v :=
  decodeAccess_of_zero_wdata (i := .wrKey k 0#32) (by revert k; decide) v

theorem decodeAccess_wrDin (k : Fin 4) (v : Word) : decodeAccess (BitVec.ofNat 11 (0x640 + 4 * k.val)) v = .wrDin k v :=
  decodeAccess_of_zero_wdata (i := .wrDin k 0#32) (by revert k; decide) v

theorem decodeAccess_wrDout (k : Fin 4) (v : Word) :
    decodeAccess (BitVec.ofNat 11 (0x650 + 4 * k.val)) v = .wrDout k v :=
  decodeAccess_of_zero_wdata (i := .wrDout k 0#32) (by revert k; decide) v

theorem decodeAccess_rsvB (n : Fin 2) (v : Word) :
    decodeAccess (BitVec.ofNat 11 (0x218 + 4 * n.val)) v = .rsvB .read n ∧
      decodeAccess (BitVec.ofNat 11 (0x618 + 4 * n.val)) v = .rsvB (.write v) n :=
  ⟨decodeAccess_of_zero_wdata (i := .rsvB .read n) (by revert n; decide) v,
    decodeAccess_of_zero_wdata (i := .rsvB (.write 0#32) n) (by revert n; decide) v⟩

theorem decodeAccess_rsvC (n : Fin 8) (v : Word) :
    decodeAccess (BitVec.ofNat 11 (0x260 + 4 * n.val)) v = .rsvC .read n ∧
      decodeAccess (BitVec.ofNat 11 (0x660 + 4 * n.val)) v = .rsvC (.write v) n :=
  ⟨decodeAccess_of_zero_wdata (i := .rsvC .read n) (by revert n; decide) v,
    decodeAccess_of_zero_wdata (i := .rsvC (.write 0#32) n) (by revert n; decide) v⟩

theorem decodeAccess_rsvD (n : Fin 32) (v : Word) :
    decodeAccess (BitVec.ofNat 11 (0x280 + 4 * n.val)) v = .rsvD .read n ∧
      decodeAccess (BitVec.ofNat 11 (0x680 + 4 * n.val)) v = .rsvD (.write v) n :=
  ⟨decodeAccess_of_zero_wdata (i := .rsvD .read n) (by revert n; decide +kernel) v,
    decodeAccess_of_zero_wdata (i := .rsvD (.write 0#32) n) (by revert n; decide +kernel) v⟩

/-! ## Reads -/

/-- The fields of STATUS as a sum (10_state.md R28). -/
theorem statusWord_eq (s : State) :
    statusWord s = BitVec.ofNat 32
      (s.busy.toNat + 2 * s.done.toNat + 4 * s.err.toNat + 8 * s.cmdovr.toNat + 256 * s.errcode.code.toNat) := by
  have hbusy := s.busy.toNat_le
  have hdone := s.done.toNat_le
  have herr := s.err.toNat_le
  have hovr := s.cmdovr.toNat_le
  have hcode := s.errcode.code.isLt
  apply BitVec.eq_of_toNat_eq
  simp only [statusWord, toNat_append_eq_add, BitVec.toNat_ofBool, BitVec.toNat_ofNat]
  omega

/-- Settles O16: each read answers what its register reads, and writes the response only. -/
theorem readsAnswerTheirRegister : Obligations.ReadsAnswerTheirRegister := by
  intro s v
  refine ⟨rfl, rfl, rfl, rfl, rfl, (decodeAccess_rdKey · v), (decodeAccess_rdDin · v), (decodeAccess_rdDout · v), rfl,
    ?_, ?_, rfl, ?_, fun _ => rfl, fun _ => rfl, fun _ => rfl⟩
  · rw [← ctrlWord_eq]
    rfl
  · rw [← statusWord_eq]
    rfl
  · rw [← keylenWord_eq]
    rfl

/-! ## Writes -/

/-- Settles O17: each write is one update of its register; of CTRL bit 0 counts, of KEYLEN the low byte, and of a
register group the one word. -/
theorem plainWritesSetTheirRegister : Obligations.PlainWritesSetTheirRegister := by
  intro s v
  refine ⟨rfl, rfl, (decodeAccess_wrKey · v), (decodeAccess_wrDin · v), ⟨_, rfl, rfl, ?_, rfl⟩, ⟨_, rfl, rfl, ?_⟩,
    fun k => ⟨_, rfl, rfl, fun j => ?_⟩, fun k => ⟨_, rfl, rfl, fun j => ?_⟩⟩
  · rw [respondWritten_ie, writeCtrl_ie, ← getLsbD_zero_toNat]
    simp
  · rw [respondWritten_keylen, writeKeylen_keylen, BitVec.extractLsb_toNat]
    rfl
  · exact vector_get_set s.key k j v
  · exact vector_get_set s.din k j v

/-- Settles O18: these rows only respond. -/
theorem ignoredAccessesChangeNothing : Obligations.IgnoredAccessesChangeNothing :=
  fun _ v => ⟨rfl, (decodeAccess_wrDout · v), rfl, rfl, (decodeAccess_rsvB · v), (decodeAccess_rsvC · v),
    (decodeAccess_rsvD · v), rfl, fun _ => rfl, rfl, rfl, fun _ => rfl, fun _ => rfl, fun _ => rfl, fun _ => rfl,
    fun _ => rfl, fun _ => rfl⟩

/-- Settles O19, by the one record that a W1C write is. -/
theorem statusWriteClearsByOnes : Obligations.StatusWriteClearsByOnes :=
  fun s v => ⟨rfl, congrArg (Host.Outcome.next <| respondWritten ·) (writeStatus_eq v s)⟩

/-! ## Illegal accesses -/

/-- The operations of the five rows of R205. -/
theorem busError_of_accessRow {i : Instr} {r : AccessRow} (hrow : i.accessRow = some r) (h : r ∈ busErrorRows) :
    ∃ dir off, i = .busErrSize1 dir off ∨ i = .busErrSize2 dir off ∨ i = .busErrSizeRsv dir off ∨
      i = .busErrOdd dir off ∨ i = .busErrHalf dir off := by
  cases i with
  | busErrSize1 dir off | busErrSize2 dir off | busErrSizeRsv dir off | busErrOdd dir off | busErrHalf dir off =>
    exact ⟨dir, off, by simp⟩
  | complete => cases hrow
  | _ => cases hrow; exact absurd h (by decide)

/-- Settles O20: each of the five operations only makes the error response, and an access that is not an aligned word
has one of their rows. -/
theorem illegalAccessesChangeNothing : Obligations.IllegalAccessesChangeNothing := by
  constructor
  · rintro s dir off i (rfl | rfl | rfl | rfl | rfl) <;> exact ⟨.busError, rfl, rfl, rfl⟩
  · intro d v hbad
    obtain ⟨r, hrow, hiff⟩ := decodeAccess_accessRow d v
    exact busError_of_accessRow hrow (hiff.2 hbad)

end Sys2Proof.Machine
end

section
/-! Exceptions (60_exceptions.md): nothing stops the machine, what a failed command records and who can record it, and
the access in the cycle of a completion. -/

namespace Sys2Proof.Machine

/-! ## Nothing stops the machine (R210) -/

theorem exec_next (i : Instr) (s : State) : ∃ t, exec i s = .next t := by
  cases i with
  | _ => exact ⟨_, rfl⟩

theorem eventStep_next (e : Event) (s : State) : ∃ t, eventStep e s = .next t := by
  cases e with
  | access d v => exact exec_next _ s
  | poll r mask val turns => exact ⟨_, pollStep_eq r mask val turns s⟩
  | sequencer => exact exec_next .complete s
  | cycle | reset | accessInReset d v => exact ⟨_, rfl⟩

theorem step_next (s : State) : ∃ t, step s = .next t := by
  cases ha : s.agenda with
  | nil => exact ⟨_, step_quiet ha⟩
  | cons e rest => exact step_event ha ▸ eventStep_next e _

theorem run_succ {s t : State} (h : step s = .next t) (n : Nat) :
    Host.Core.run core (n + 1) s = Host.Core.run core n t := by
  have hstep : core.step s = .next t := h
  simp only [Host.Core.run, hstep]

/-- Settles O10, by induction on the number of steps. -/
theorem everyRunIsSafe : Obligations.EveryRunIsSafe := by
  intro s n
  induction n generalizing s with
  | zero => exact ⟨s, rfl⟩
  | succ n ih =>
    obtain ⟨t, ht⟩ := step_next s
    exact run_succ ht n ▸ ih t

/-! ## Command errors (R211 to R214) -/

/-- R212: a failed command records its code, and changes nothing else but DONE. -/
theorem respondWritten_command_failed {d : Cmd} {s : State} {code : ErrCode} (hidle : s.busy = false)
    (hcheck : checkCmd d s = code) (hcode : code ≠ .none) :
    respondWritten (command d s) =
      { s with done := false, err := true, errcode := code, resp := some .written } := by
  subst hcheck
  rw [command_failed hidle hcode]
  rfl

/-- R181, the second check. -/
theorem checkCmd_blockSize {b : Byte} (h : b ≠ 16#8) (s : State) :
    checkCmd (.enc b) s = .blockSize ∧ checkCmd (.dec b) s = .blockSize := by
  have hblen : b.toNat ≠ Config.blockBytes := fun e => h (BitVec.eq_of_toNat_eq e)
  exact ⟨if_pos hblen, if_pos hblen⟩

/-- R181, the third check. -/
theorem checkCmd_keySize {s : State} (h : s.keylen.toNat ∉ [4, 8, 12, 16, 20, 24, 28, 32]) :
    checkCmd (.enc 16#8) s = .keySize ∧ checkCmd (.dec 16#8) s = .keySize := by
  have hillegal : ¬ keyLenLegal Config.keyLenSet (keyBytes s) = true := mt (keyLenLegal_iff _ _).1 h
  simp [checkCmd_enc, checkCmd_dec, Config.blockBytes, hillegal]

/-- Settles O27: each of the three is a command that fails its check. -/
theorem commandErrorsAreRecorded : Obligations.CommandErrorsAreRecorded := by
  intro s hidle failed
  have hfailed {d : Cmd} {code : ErrCode} (hcheck : checkCmd d s = code) (hcode : code ≠ .none) :
      respondWritten (command d s) = failed code := respondWritten_command_failed hidle hcheck hcode
  refine ⟨fun w _ => congrArg _ (hfailed (checkCmd_illegal s) nofun), fun b hb => ?_, fun hlen => ?_⟩
  · obtain ⟨henc, hdec⟩ := checkCmd_blockSize hb s
    exact ⟨congrArg _ (hfailed henc nofun), congrArg _ (hfailed hdec nofun)⟩
  · obtain ⟨henc, hdec⟩ := checkCmd_keySize hlen
    exact ⟨congrArg _ (hfailed henc nofun), congrArg _ (hfailed hdec nofun)⟩

theorem clearOutcome_of_outcome (s : State) (done err : Bool) (code : ErrCode) :
    clearOutcome { s with done := done, err := err, errcode := code } = clearOutcome s := rfl

/-- Settles O31: a command of an idle core starts by clearing the three fields (R222). -/
theorem nextCommandForgetsTheLastOutcome : Obligations.NextCommandForgetsTheLastOutcome := by
  intro s w done err code hidle
  rw [exec_wrCmd_eq, exec_wrCmd_eq, command_idle _ hidle, command_idle _ (by exact hidle), clearOutcome_of_outcome]

@[simp] theorem completeStep_err (s : State) : (completeStep s).err = s.err := by rw [completeStep_frame]

/-- A W1C write can only clear ERR (R221). -/
theorem writeStatus_err {s : State} (h : s.err = false) (v : Word) : (writeStatus v s).err = false := by
  simp [writeStatus_eq, h]

/-- R213: a command raises ERR only while idle; a command of a busy core is the overrun. -/
theorem idle_of_command_raises {d : Cmd} {s : State} (h : s.err = false) (hraised : (command d s).err = true) :
    s.busy = false := by
  by_contra hbusy
  rw [command_busy d (by simpa using hbusy), setOverrun_err, h] at hraised
  cases hraised

/-- Settles O32: the writers of ERR are a completion, which leaves it, the W1C of STATUS, which can only clear it, and
the CMD write. -/
theorem onlyIdleCommandWritesRaise : Obligations.OnlyIdleCommandWritesRaise := by
  intro s t i he herr hraised
  obtain ⟨-, -, -, -, -, -, -, hwriter, -⟩ := eachRegisterHasItsWriters s t i he
  obtain rfl | hrow | ⟨v, rfl⟩ := hwriter (by simp [herr, hraised])
  · cases he
    simp [herr] at hraised
  · obtain ⟨d, hd⟩ := exec_commandRow hrow
    cases (hd s).symm.trans he
    exact ⟨idle_of_command_raises herr hraised, hrow⟩
  · cases he
    simp [writeStatus_err herr] at hraised

/-! ## An access in the cycle of completion (R216) -/

theorem decodeAccess_ne_complete (d : BitVec 11) (v : Word) : decodeAccess d v ≠ .complete := by
  intro h
  obtain ⟨r, hrow, -⟩ := decodeAccess_accessRow d v
  rw [h] at hrow
  cases hrow

/-- The access goes first and leaves the core busy, so the completion that follows it is enabled. -/
theorem run_access_then_completion {s u : State} {d : BitVec 11} {v : Word} {rest : List Event} (hbusy : s.busy = true)
    (hnext : s.agenda = .access d v :: .sequencer :: rest)
    (he : exec (decodeAccess d v) { s with agenda := .sequencer :: rest } = .next u) :
    ∃ t, Host.Core.run core 2 s = .next t ∧ t.busy = false ∧ t.done = true ∧ t.cmdovr = u.cmdovr := by
  obtain ⟨-, -, -, -, -, -, -, -, hagenda, -⟩ := eachRegisterHasItsWriters _ _ _ he
  obtain ⟨hbusy', -⟩ := noAccessDisturbsARunningCommand { s with agenda := .sequencer :: rest } u _ hbusy
    (decodeAccess_ne_complete d v) he
  have haccess : step s = .next u := (step_event hnext).trans he
  have hcompletion : step u = .next (finish (pendingResult u.int) { u with agenda := rest }) :=
    (step_event hagenda).trans (exec_complete_busy hbusy')
  exact ⟨_, (run_succ haccess 1).trans (run_succ hcompletion 0), rfl, rfl, rfl⟩

/-- Settles O38: the completion after the access sets DONE, whatever the access cleared, and keeps the CMDOVR that a CMD
write of the busy core has set. -/
theorem accessInTheCycleOfCompletion : Obligations.AccessInTheCycleOfCompletion := by
  intro s v rest hbusy
  constructor <;> intro hnext
  · obtain ⟨u, he⟩ := exec_next (decodeAccess 0x608#11 v) { s with agenda := .sequencer :: rest }
    obtain ⟨t, hrun, hidle, hdone, -⟩ := run_access_then_completion hbusy hnext he
    exact ⟨t, hrun, hidle, hdone⟩
  · obtain ⟨-, he⟩ := commandWriteWhileBusyIsDropped { s with agenda := .sequencer :: rest } v hbusy
    exact run_access_then_completion hbusy hnext he

end Sys2Proof.Machine
end

section
/-! Reset and liveness (70_reset_and_hazards.md): a reset abandons the running command, a clock of the nominal sequencer
refines the completion, 155 of them are one, and `wait` ends. -/

namespace Sys2Proof.Machine

/-! ## The nominal sequencer refines the completion (R253) -/

/-- Of the phases of a running command only POST has a single clock left. -/
theorem one_lt_clocksLeft {n : Internal} (hidle : n.phase ≠ .idle) (hpost : n.phase ≠ .post) : 1 < n.clocksLeft := by
  cases hphase : n.phase with
  | idle => exact absurd hphase hidle
  | post => exact absurd hphase hpost
  | ksInit | pre => simp [Internal.clocksLeft, hphase]
  | ksMix =>
    have := n.k.isLt
    simp only [Internal.clocksLeft, hphase]
    omega
  | round =>
    have := n.r.isLt
    simp only [Internal.clocksLeft, hphase]
    omega

/-- The clock of POST writes the pending result, as completion does. -/
theorem cycleStep_post_completes {s : State} (hbusy : s.busy = true) (hpost : s.int.phase = .post) :
    cycleStep s = { completeStep s with int := (cycleStep s).int } := by
  have hresult : pendingResult s.int = whitenOut s.int.snap.op s.int.S s.int.w := by simp only [pendingResult, hpost]
  rw [cycleStep_post hpost, completeStep_busy hbusy, hresult]
  rfl

/-- Settles O53: a clock of POST completes, and every other clock of a busy core leaves the pending result. -/
theorem clockRefinesCompletion : Obligations.ClockRefinesCompletion := by
  intro s hinv hbusy t
  refine ⟨cycleStep_keeps_inv hinv, ?_⟩
  by_cases hpost : s.int.phase = .post
  · exact .inr (cycleStep_post_completes hbusy hpost)
  · have hidle : s.int.phase ≠ .idle := by simp [hinv.phaseIff, hbusy]
    obtain ⟨n, hn, hresult, -⟩ := cycleStep_pending (one_lt_clocksLeft hidle hpost)
    have ht : t = { s with int := n } := hn
    rw [ht]
    exact .inl ⟨hbusy, rfl, hresult⟩

/-- But for internal words, a completion depends on the internal words only through the pending result. -/
theorem completeStep_of_pending {s : State} {m : Internal} (hbusy : s.busy = true)
    (hresult : pendingResult m = pendingResult s.int) (k : Internal) :
    { completeStep { s with int := m } with int := k } = { completeStep s with int := k } := by
  rw [completeStep_busy (s := { s with int := m }) hbusy, completeStep_busy hbusy, hresult]
  rfl

theorem phase_post_of_clocksLeft_one {n : Internal} (h : n.clocksLeft = 1) : n.phase = .post := by
  have hidle : n.phase ≠ .idle := by
    intro hphase
    simp [Internal.clocksLeft, hphase] at h
  by_contra hpost
  exact absurd h (one_lt_clocksLeft hidle hpost).ne'

/-- The clocks that a running command still needs are one completion. -/
theorem cycles_clocksLeft (n : Nat) {s : State} (hbusy : s.busy = true) (h : s.int.clocksLeft = n + 1) :
    cycles (n + 1) s = { completeStep s with int := (cycles (n + 1) s).int } := by
  induction n generalizing s with
  | zero => exact cycleStep_post_completes hbusy (phase_post_of_clocksLeft_one h)
  | succ n ih =>
    obtain ⟨m, hm, hresult, hleft⟩ := cycleStep_pending (s := s) (by omega)
    have hrest : cycles (n + 1 + 1) s = cycles (n + 1) { s with int := m } := by rw [cycles_succ, hm]
    rw [hrest]
    exact (ih (s := { s with int := m }) hbusy (by simp only; omega)).trans (completeStep_of_pending hbusy hresult _)

/-- Settles O54: the phase that issue leaves needs 155 clocks. -/
theorem nominalLatencyIsOneFiftyFive : Obligations.NominalLatencyIsOneFiftyFive := by
  intro s hinv hbusy hphase
  have hleft : s.int.clocksLeft = 155 := by simp only [Internal.clocksLeft, hphase]
  refine ⟨fun n hn => ?_, cycles_clocksLeft 154 hbusy hleft⟩
  obtain ⟨m, hm, -, -⟩ := cycles_pending n (hleft ▸ hn)
  rw [hm]
  exact hbusy

/-! ## `wait` ends (R252, 30_encoding.md R91) -/

theorem statusWord_and_one_eq_zero_iff (s : State) : statusWord s &&& 1#32 = 0#32 ↔ s.busy = false := by
  have hbit : (statusWord s).getLsbD 0 = s.busy := by
    simp only [statusWord, BitVec.getLsbD_append]
    simp
  rw [BitVec.and_one_eq_setWidth_ofBool_getLsbD, hbit]
  cases s.busy <;> decide

/-- The state after a STATUS read that leaves these inputs. -/
def statusRead (agenda : List Event) (s : State) : State := { respondData (statusWord s) s with agenda := agenda }

/-- `wait` finds an idle core idle, and is over. -/
theorem step_wait_idle {s : State} {turns : Nat} {rest : List Event} (hidle : s.busy = false)
    (ha : s.agenda = .poll .status 1#32 0#32 turns :: rest) : step s = .next (statusRead rest s) := by
  have hread : statusWord { s with agenda := rest } &&& 1#32 = 0#32 := (statusWord_and_one_eq_zero_iff _).2 hidle
  rw [step_event ha, eventStep, pollStep_eq, readReg, if_pos hread]
  rfl

/-- `wait` finds a busy core busy, and stays. -/
theorem step_wait_busy {s : State} {turns : Nat} {rest : List Event} (hbusy : s.busy = true)
    (ha : s.agenda = .poll .status 1#32 0#32 turns :: rest) :
    step s = .next (statusRead (pollAgain .status 1#32 0#32 turns rest) s) := by
  have hread : ¬ statusWord { s with agenda := rest } &&& 1#32 = 0#32 := by
    simp [statusWord_and_one_eq_zero_iff, hbusy]
  rw [step_event ha, eventStep, pollStep_eq, readReg, if_neg hread]
  rfl

theorem step_sequencer_busy {s : State} {rest : List Event} (hbusy : s.busy = true)
    (ha : s.agenda = .sequencer :: rest) : step s = .next (finish (pendingResult s.int) { s with agenda := rest }) :=
  (step_event ha).trans (exec_complete_busy (s := { s with agenda := rest }) hbusy)

/-- `wait` on a busy core: `turns + 1` unsuccessful reads, the completion, and the read that finds BUSY = 0. -/
theorem run_wait_busy (turns : Nat) {s : State} {rest : List Event} (hbusy : s.busy = true)
    (ha : s.agenda = .poll .status 1#32 0#32 turns :: rest) :
    Host.Core.run core (turns + 3) s = .next (statusRead rest (finish (pendingResult s.int) s)) := by
  induction turns generalizing s with
  | zero =>
    have hread := step_wait_busy hbusy ha
    have hturn := step_sequencer_busy (s := statusRead (pollAgain .status 1#32 0#32 0 rest) s) hbusy rfl
    exact (run_succ hread 2).trans ((run_succ hturn 1).trans (run_succ (step_wait_idle rfl rfl) 0))
  | succ turns ih =>
    have hread := step_wait_busy hbusy ha
    have hbusy' : (statusRead (.poll .status 1#32 0#32 turns :: rest) s).busy = true := hbusy
    exact (run_succ hread (turns + 3)).trans (ih hbusy' rfl)

/-- Settles O55: on an idle core the first read ends the poll, on a busy one the read after the completion. -/
theorem waitTerminates : Obligations.WaitTerminates := by
  intro s turns rest _ hwait
  have ha : s.agenda = .poll .status 1#32 0#32 turns :: rest := hwait
  cases hbusy : s.busy with
  | true => exact ⟨turns + 3, _, le_rfl, run_wait_busy turns hbusy ha, rfl, rfl, fun _ => ⟨rfl, rfl⟩⟩
  | false => exact ⟨1, _, by omega, run_succ (step_wait_idle hbusy ha) 0, rfl, hbusy, nofun⟩

/-! ## No input left -/

/-- Settles O9: the quiet step is the sequencer's turn. -/
theorem quietCoreCompletesOrRests : Obligations.QuietCoreCompletesOrRests := by
  intro s ha
  refine ⟨fun hbusy => ?_, fun hidle => ?_⟩
  · exact ⟨_, step_quiet ha, by simp [completeStep_busy hbusy]⟩
  · rw [step_quiet ha, completeStep_idle hidle]

/-! ## Reset (R240 to R243) -/

/-- Settles O12: the reset leaves an idle core, whose sequencer's turn changes nothing. -/
theorem resetAbandonsTheCommand : Obligations.ResetAbandonsTheCommand := by
  intro s rest _ ha
  have hreset : step s = .next { State.reset with agenda := .sequencer :: rest } := step_event ha
  have hturn : step { State.reset with agenda := .sequencer :: rest } = .next { State.reset with agenda := rest } :=
    idleSequencerChangesNothing { State.reset with agenda := rest } rfl
  obtain ⟨-, -, hbusy, hdone, -, -, -, -, hkey, -, hdout, -⟩ := resetLeavesTheStatedValues s State.reset rest (.inr rfl)
  exact ⟨_, (run_succ hreset 1).trans (run_succ hturn 0), hbusy, hdone, hdout, hkey, rfl⟩

/-- Settles O13: the step is the reset and the answer, whatever the access is. -/
theorem accessUnderResetIsIgnored : Obligations.AccessUnderResetIsIgnored := by
  intro s d v rest ha
  refine ⟨_, step_event ha, ?_⟩
  unfold resetAccessStep
  cases d.getLsbD 10 <;> exact ⟨rfl, rfl⟩

end Sys2Proof.Machine
end
